-- ==== Sys2Proof/Word.lean ====
section
/-! DEFINITION. The bit strings the spec names (R13, R21, R41, R65) and their plainest views. -/

namespace Sys2Proof

/-- A byte of the host bus or of a slot (R45). -/
abbrev Byte := BitVec 8

/-- A 64-bit word: one limb, one host access, one CSR, one command word (R5, R25, R43, R65). -/
abbrev Word := BitVec 64

/-- The contents of one operand-memory slot (R21): a 384-bit unsigned integer. -/
abbrev SlotWord := BitVec 384

/-- A slot address, as the D, A and B fields of a command word hold it (R41, R65). -/
abbrev SlotAddr := BitVec 16

/-- A byte address of the block's host window, an offset from BASE (R41, R42). -/
abbrev HostAddr := BitVec 22

end Sys2Proof
end

