-- ==== Sys2Proof/Config.lean ====
section
/-! DEFINITION. What an implementation fixes: the parameters of R5 and the curve constants of R6 to R12. -/

namespace Sys2Proof.Config

/-- The base-field modulus p (R6). -/
def p : Nat :=
  0x1a0111ea397fe69a4b1ba7b6434bacd764774b84f38512bf6730d2a0f6b0f6241eabfffeb153ffffb9feffffffffaaab

/-- The six 64-bit limbs of p, least significant first (R6). -/
def pLimbs : List Nat :=
  [0xb9feffffffffaaab, 0x1eabfffeb153ffff, 0x6730d2a0f6b0f624, 0x64774b84f38512bf, 0x4b1ba7b6434bacd7, 0x1a0111ea397fe69a]

/-- The group order r (R7). -/
def r : Nat :=
  0x73eda753299d7d483339d80809a1d80553bda402fffe5bfeffffffff00000001

/-- The magnitude of the curve seed, which is negative: x = −|x| (R8). -/
def seedAbs : Nat := 0xd201000000010000

/-- The Montgomery radix R = 2^384 (R5, R9). -/
def radix : Nat := 2 ^ 384

/-- R^(−1) mod p: the factor of the Montgomery product and of `val` (R14, R77).
DEDUCED from R6 and R9, safe: `Laws.Field` proves that it is the inverse of the radix. -/
def radixInv : Nat :=
  0x14fec701e8fb0ce9ed5e64273c4f538b1797ab1458a88de9343ea97914956dc87fe11274d898fafbf4d38259380b4820

/-- RSQ = R² mod p (R9). -/
def rsq : Nat :=
  0x11988fe592cae3aa9a793e85b519952d67eb88a9939d83c08de5476c4c95b6d50a76e6a609d104f1f4df1f341c341746

/-- NINV = −p^(−1) mod 2^64, the constant of REDC (R9). -/
def ninv : Nat := 0x89f3fffcfffcfffd

/-- The plain coordinates of the G1 generator (R12). -/
def g1GenX : Nat :=
  0x17f1d3a73197d7942695638c4fa9ac0fc3688c4f9774b905a14e3a3f171bac586c55e83ff97a1aeffb3af00adb22c6bb

/-- The plain coordinates of the G1 generator (R12). -/
def g1GenY : Nat :=
  0x8b3f481e3aaa0f1a09e30ed741d8ae4fcf5e095d5d00af600db18cb2c04b3edd03cc744a2888ae40caa232946c5e7e1

/-- x.c0 of the G2 generator (R12). -/
def g2GenX0 : Nat :=
  0x24aa2b2f08f0a91260805272dc51051c6e47ad4fa403b02b4510b647ae3d1770bac0326a805bbefd48056c8c121bdb8

/-- x.c1 of the G2 generator (R12). -/
def g2GenX1 : Nat :=
  0x13e02b6052719f607dacd3a088274f65596bd0d09920b61ab5da61bbdc7f5049334cf11213945d57e5ac7d055d042b7e

/-- y.c0 of the G2 generator (R12). -/
def g2GenY0 : Nat :=
  0xce5d527727d6e118cc9cdc6da2e351aadfd9baa8cbdd3a76d429a695160d12c923ac9cc3baca289e193548608b82801

/-- y.c1 of the G2 generator (R12). -/
def g2GenY1 : Nat :=
  0x606c4a02ea734cc32acd2b02bc28b99cb3e287e85a763af267492ab572e99ab3f370d275cec1da1aaa9075ff05f79be

/-- The identification value, the ASCII string BLS12381 (R26). -/
def idValue : Word := 0x424C533132333831

/-- The number of digit bytes a recode writes, WNAF_DIGITS (R5, R54). -/
def wnafDigits : Nat := 288

/-- The line-coefficient triples of one pair, NLINE (R5, R156). -/
def nLine : Nat := 68

/-- N_SLOTS is OPEN, 64 to 65536 (R5). The value the machine has at reset.
DESIGN CHOICE (log 2): the vectors of 95_test_vectors.md assume 64; unsafe only where a statement rests on it. -/
def resetSlots : Nat := 64

/-- MAX_COUNT is OPEN, 1 to 2^32 − 1 (R5). The value the machine has at reset.
DESIGN CHOICE (log 2): the vectors of 95_test_vectors.md assume 4; unsafe only where a statement rests on it. -/
def resetMaxCount : Nat := 4

/-- Where the OM window begins in the host space (R42, R44). -/
def omBase : Nat := 0x100000

theorem p_pos : 0 < p := by decide

end Sys2Proof.Config
end

