-- ==== Sys2Proof/Syntax.lean ====
section
/-! DEFINITION. The commands (R65, R72): one constructor per row of the opcode table. `d` is the destination base
slot, `a` and `b` the source base slots, and the last argument of a command that uses AUX is the AUX byte. -/

namespace Sys2Proof

/-- The field of a command word that an error names (R32, R173): 0 none or AUX, 1 D, 2 A, 3 B. -/
inductive Operand where
  | none | d | a | b
  deriving DecidableEq, Repr

/-- ERRINFO.OPND as a number (R32). -/
def Operand.code : Operand → BitVec 2
  | .none => 0
  | .d => 1
  | .a => 2
  | .b => 3

/-- A command, as the opcode map of R72 lists them. -/
inductive Instr where
  /-- NOP (OPC 0x00): R169. -/
  | nop
  /-- COPY (OPC 0x01): R170. -/
  | copy (d a : SlotAddr) (n : BitVec 8)
  /-- LDC (OPC 0x02): R171. -/
  | ldc (d : SlotAddr) (i : BitVec 8)
  /-- FP.ADD (OPC 0x10): R81. -/
  | fpAdd (d a b : SlotAddr)
  /-- FP.SUB (OPC 0x11): R82. -/
  | fpSub (d a b : SlotAddr)
  /-- FP.DBL (OPC 0x12): R83. -/
  | fpDbl (d a : SlotAddr)
  /-- FP.NEG (OPC 0x13): R84. -/
  | fpNeg (d a : SlotAddr)
  /-- FP.MUL (OPC 0x14): R85. -/
  | fpMul (d a b : SlotAddr)
  /-- FP.SQR (OPC 0x15): R86. -/
  | fpSqr (d a : SlotAddr)
  /-- FP.TOMONT (OPC 0x16): R87. -/
  | fpTomont (d a : SlotAddr)
  /-- FP.FROMMONT (OPC 0x17): R88. -/
  | fpFrommont (d a : SlotAddr)
  /-- FP.INV (OPC 0x18): R89. -/
  | fpInv (d a : SlotAddr)
  /-- FP.SQRT (OPC 0x19): R90. -/
  | fpSqrt (d a : SlotAddr)
  /-- FP.ISQNR (OPC 0x1A): R91. -/
  | fpIsqnr (a : SlotAddr)
  /-- FP.EQ (OPC 0x1B): R92. -/
  | fpEq (a b : SlotAddr)
  /-- FP.ISZERO (OPC 0x1C): R93. -/
  | fpIszero (a : SlotAddr)
  /-- FP2.ADD (OPC 0x20): R99. -/
  | fp2Add (d a b : SlotAddr)
  /-- FP2.SUB (OPC 0x21): R100. -/
  | fp2Sub (d a b : SlotAddr)
  /-- FP2.DBL (OPC 0x22): R101. -/
  | fp2Dbl (d a : SlotAddr)
  /-- FP2.NEG (OPC 0x23): R102. -/
  | fp2Neg (d a : SlotAddr)
  /-- FP2.MUL (OPC 0x24): R103. -/
  | fp2Mul (d a b : SlotAddr)
  /-- FP2.SQR (OPC 0x25): R104. -/
  | fp2Sqr (d a : SlotAddr)
  /-- FP2.INV (OPC 0x26): R105. -/
  | fp2Inv (d a : SlotAddr)
  /-- FP2.CONJ (OPC 0x27): R106. -/
  | fp2Conj (d a : SlotAddr)
  /-- FP2.FROB (OPC 0x28): R107. -/
  | fp2Frob (d a : SlotAddr) (k : BitVec 8)
  /-- FP2.EQ (OPC 0x29): R108. -/
  | fp2Eq (a b : SlotAddr)
  /-- FP6.ADD (OPC 0x30): R109. -/
  | fp6Add (d a b : SlotAddr)
  /-- FP6.SUB (OPC 0x31): R110. -/
  | fp6Sub (d a b : SlotAddr)
  /-- FP6.DBL (OPC 0x32): R111. -/
  | fp6Dbl (d a : SlotAddr)
  /-- FP6.NEG (OPC 0x33): R112. -/
  | fp6Neg (d a : SlotAddr)
  /-- FP6.MUL (OPC 0x34): R113. -/
  | fp6Mul (d a b : SlotAddr)
  /-- FP6.SQR (OPC 0x35): R114. -/
  | fp6Sqr (d a : SlotAddr)
  /-- FP6.INV (OPC 0x36): R115. -/
  | fp6Inv (d a : SlotAddr)
  /-- FP6.FROB (OPC 0x37): R116. -/
  | fp6Frob (d a : SlotAddr) (k : BitVec 8)
  /-- FP6.MULBY01 (OPC 0x38): R117. -/
  | fp6Mulby01 (d a b : SlotAddr)
  /-- FP6.MULBY1 (OPC 0x39): R118. -/
  | fp6Mulby1 (d a b : SlotAddr)
  /-- FP6.EQ (OPC 0x3A): R119. -/
  | fp6Eq (a b : SlotAddr)
  /-- FP12.ADD (OPC 0x40): R120. -/
  | fp12Add (d a b : SlotAddr)
  /-- FP12.SUB (OPC 0x41): R121. -/
  | fp12Sub (d a b : SlotAddr)
  /-- FP12.DBL (OPC 0x42): R122. -/
  | fp12Dbl (d a : SlotAddr)
  /-- FP12.NEG (OPC 0x43): R123. -/
  | fp12Neg (d a : SlotAddr)
  /-- FP12.MUL (OPC 0x44): R124. -/
  | fp12Mul (d a b : SlotAddr)
  /-- FP12.SQR (OPC 0x45): R125. -/
  | fp12Sqr (d a : SlotAddr)
  /-- FP12.INV (OPC 0x46): R126. -/
  | fp12Inv (d a : SlotAddr)
  /-- FP12.CONJ (OPC 0x47): R127. -/
  | fp12Conj (d a : SlotAddr)
  /-- FP12.FROB (OPC 0x48): R128. -/
  | fp12Frob (d a : SlotAddr) (k : BitVec 8)
  /-- FP12.MULBY014 (OPC 0x49): R129. -/
  | fp12Mulby014 (d a b : SlotAddr)
  /-- FP12.MULBY034 (OPC 0x4A): R130. -/
  | fp12Mulby034 (d a b : SlotAddr)
  /-- FP12.CSQR (OPC 0x4B): R131. -/
  | fp12Csqr (d a : SlotAddr)
  /-- FP12.EQ (OPC 0x4C): R132. -/
  | fp12Eq (a b : SlotAddr)
  /-- G1.ADD (OPC 0x50): R139. -/
  | g1Add (d a b : SlotAddr)
  /-- G1.ADDM (OPC 0x51): R140. -/
  | g1Addm (d a b : SlotAddr)
  /-- G1.DBL (OPC 0x52): R141. -/
  | g1Dbl (d a : SlotAddr)
  /-- G1.NEG (OPC 0x53): R142. -/
  | g1Neg (d a : SlotAddr)
  /-- G1.SUB (OPC 0x54): R143. -/
  | g1Sub (d a b : SlotAddr)
  /-- G1.MUL (OPC 0x55): R144. -/
  | g1Mul (d a b : SlotAddr)
  /-- G1.EQ (OPC 0x56): R146. -/
  | g1Eq (a b : SlotAddr)
  /-- G1.ISZERO (OPC 0x57): R147. -/
  | g1Iszero (a : SlotAddr)
  /-- G1.ONCURVE (OPC 0x58): R148. -/
  | g1Oncurve (a : SlotAddr)
  /-- G1.INSUB (OPC 0x59): R149. -/
  | g1Insub (a : SlotAddr)
  /-- G1.CHECK (OPC 0x5A): R150. -/
  | g1Check (a : SlotAddr)
  /-- G1.AFFINE (OPC 0x5B): R151. -/
  | g1Affine (d a : SlotAddr)
  /-- G1.AFFB (OPC 0x5C): R152. -/
  | g1Affb (d a : SlotAddr)
  /-- G1.MSM (OPC 0x5D): R168. -/
  | g1Msm (d a b : SlotAddr)
  /-- G1.ISAFFINE (OPC 0x5E): R153. -/
  | g1Isaffine (a : SlotAddr)
  /-- G1.MULCT (OPC 0x5F): R145. -/
  | g1Mulct (d a b : SlotAddr)
  /-- G2.ADD (OPC 0x60): R139. -/
  | g2Add (d a b : SlotAddr)
  /-- G2.ADDM (OPC 0x61): R140. -/
  | g2Addm (d a b : SlotAddr)
  /-- G2.DBL (OPC 0x62): R141. -/
  | g2Dbl (d a : SlotAddr)
  /-- G2.NEG (OPC 0x63): R142. -/
  | g2Neg (d a : SlotAddr)
  /-- G2.SUB (OPC 0x64): R143. -/
  | g2Sub (d a b : SlotAddr)
  /-- G2.MUL (OPC 0x65): R144. -/
  | g2Mul (d a b : SlotAddr)
  /-- G2.EQ (OPC 0x66): R146. -/
  | g2Eq (a b : SlotAddr)
  /-- G2.ISZERO (OPC 0x67): R147. -/
  | g2Iszero (a : SlotAddr)
  /-- G2.ONCURVE (OPC 0x68): R148. -/
  | g2Oncurve (a : SlotAddr)
  /-- G2.INSUB (OPC 0x69): R149. -/
  | g2Insub (a : SlotAddr)
  /-- G2.CHECK (OPC 0x6A): R150. -/
  | g2Check (a : SlotAddr)
  /-- G2.AFFINE (OPC 0x6B): R151. -/
  | g2Affine (d a : SlotAddr)
  /-- G2.AFFB (OPC 0x6C): R152. -/
  | g2Affb (d a : SlotAddr)
  /-- G2.MSM (OPC 0x6D): R168. -/
  | g2Msm (d a b : SlotAddr)
  /-- G2.ISAFFINE (OPC 0x6E): R153. -/
  | g2Isaffine (a : SlotAddr)
  /-- G2.MULCT (OPC 0x6F): R145. -/
  | g2Mulct (d a b : SlotAddr)
  /-- MILLER (OPC 0x70): R160. -/
  | miller (d a b : SlotAddr)
  /-- FINALEXP (OPC 0x71): R161. -/
  | finalexp (d a : SlotAddr)
  /-- PAIR (OPC 0x72): R163. -/
  | pair (d a b : SlotAddr)
  /-- PCHECK (OPC 0x73): R164. -/
  | pcheck (a b : SlotAddr)
  /-- CEXP (OPC 0x74): R162. -/
  | cexp (d a : SlotAddr)
  /-- WNAF (OPC 0x80): R165. -/
  | wnaf (d a : SlotAddr) (w : BitVec 8)
  /-- FROMWNAF (OPC 0x81): R166. -/
  | fromwnaf (d a : SlotAddr)
  deriving DecidableEq, Repr

end Sys2Proof
end

