-- ==== Sys2Proof/WellFormed.lean ====
section
/-! DEFINITION. Which commands a word can stand for: the AUX ranges of R73. Every other field may hold any value. -/

namespace Sys2Proof

/-- The AUX ranges of R73: LDC takes a ROM index below 10, WNAF a width from 2 to 8; every other AUX value a command
uses is legal (COPY R170, FROB R107, R116, R128). -/
def WellFormed : Instr → Bool
  | .nop => true
  | .copy _ _ _ => true
  | .ldc _ i => decide (i.toNat < 10)
  | .fpAdd _ _ _ => true
  | .fpSub _ _ _ => true
  | .fpDbl _ _ => true
  | .fpNeg _ _ => true
  | .fpMul _ _ _ => true
  | .fpSqr _ _ => true
  | .fpTomont _ _ => true
  | .fpFrommont _ _ => true
  | .fpInv _ _ => true
  | .fpSqrt _ _ => true
  | .fpIsqnr _ => true
  | .fpEq _ _ => true
  | .fpIszero _ => true
  | .fp2Add _ _ _ => true
  | .fp2Sub _ _ _ => true
  | .fp2Dbl _ _ => true
  | .fp2Neg _ _ => true
  | .fp2Mul _ _ _ => true
  | .fp2Sqr _ _ => true
  | .fp2Inv _ _ => true
  | .fp2Conj _ _ => true
  | .fp2Frob _ _ _ => true
  | .fp2Eq _ _ => true
  | .fp6Add _ _ _ => true
  | .fp6Sub _ _ _ => true
  | .fp6Dbl _ _ => true
  | .fp6Neg _ _ => true
  | .fp6Mul _ _ _ => true
  | .fp6Sqr _ _ => true
  | .fp6Inv _ _ => true
  | .fp6Frob _ _ _ => true
  | .fp6Mulby01 _ _ _ => true
  | .fp6Mulby1 _ _ _ => true
  | .fp6Eq _ _ => true
  | .fp12Add _ _ _ => true
  | .fp12Sub _ _ _ => true
  | .fp12Dbl _ _ => true
  | .fp12Neg _ _ => true
  | .fp12Mul _ _ _ => true
  | .fp12Sqr _ _ => true
  | .fp12Inv _ _ => true
  | .fp12Conj _ _ => true
  | .fp12Frob _ _ _ => true
  | .fp12Mulby014 _ _ _ => true
  | .fp12Mulby034 _ _ _ => true
  | .fp12Csqr _ _ => true
  | .fp12Eq _ _ => true
  | .g1Add _ _ _ => true
  | .g1Addm _ _ _ => true
  | .g1Dbl _ _ => true
  | .g1Neg _ _ => true
  | .g1Sub _ _ _ => true
  | .g1Mul _ _ _ => true
  | .g1Eq _ _ => true
  | .g1Iszero _ => true
  | .g1Oncurve _ => true
  | .g1Insub _ => true
  | .g1Check _ => true
  | .g1Affine _ _ => true
  | .g1Affb _ _ => true
  | .g1Msm _ _ _ => true
  | .g1Isaffine _ => true
  | .g1Mulct _ _ _ => true
  | .g2Add _ _ _ => true
  | .g2Addm _ _ _ => true
  | .g2Dbl _ _ => true
  | .g2Neg _ _ => true
  | .g2Sub _ _ _ => true
  | .g2Mul _ _ _ => true
  | .g2Eq _ _ => true
  | .g2Iszero _ => true
  | .g2Oncurve _ => true
  | .g2Insub _ => true
  | .g2Check _ => true
  | .g2Affine _ _ => true
  | .g2Affb _ _ => true
  | .g2Msm _ _ _ => true
  | .g2Isaffine _ => true
  | .g2Mulct _ _ _ => true
  | .miller _ _ _ => true
  | .finalexp _ _ => true
  | .pair _ _ _ => true
  | .pcheck _ _ => true
  | .cexp _ _ => true
  | .wnaf _ _ w => decide (2 ≤ w.toNat) && decide (w.toNat ≤ 8)
  | .fromwnaf _ _ => true

end Sys2Proof
end

