-- ==== Sys2Proof/Decode.lean ====
section
/-! DEFINITION. The command word (R65), its decoder (R72, R73, R175 checks 1 and 2), and after it the encoder, the
masks of R74, the assembler form of R75 and the pseudo-commands of R76. -/

namespace Sys2Proof

/-- Why a word stands for no command (R73). -/
inductive DecodeError where
  /-- The OPC is not assigned: ILLEGAL_OPCODE. -/
  | illegalOpcode
  /-- A field the opcode does not use is non-zero, or AUX is out of range: RESERVED_FIELD, with the field. -/
  | reservedField (field : Operand)
  deriving DecidableEq, Repr

/-! ### The fields of a word (R65) -/

def opcOf (w : Word) : BitVec 8 := w.extractLsb' 0 8
def auxOf (w : Word) : BitVec 8 := w.extractLsb' 8 8
def dOf (w : Word) : SlotAddr := w.extractLsb' 16 16
def aOf (w : Word) : SlotAddr := w.extractLsb' 32 16
def bOf (w : Word) : SlotAddr := w.extractLsb' 48 16

/-- A word from its fields: `OPC | AUX << 8 | D << 16 | A << 32 | B << 48` (R65). -/
def commandWord (opc aux : BitVec 8) (d a b : SlotAddr) : Word :=
  b ++ a ++ d ++ aux ++ opc

/-! ### The shapes of a command: which fields it uses (R72)

A field the opcode does not use must be 0, checked in the order AUX, D, A, B (R66, R175 check 2). -/

/-- The reserved-field check: the first of the listed fields that is not zero is the one reported. -/
def checkReserved : List (Operand × Bool) → Except DecodeError Unit
  | [] => .ok ()
  | (field, zero) :: rest =>
    if zero then checkReserved rest else .error (.reservedField field)

def auxZero (w : Word) : Operand × Bool := (.none, auxOf w == 0)
def dZero (w : Word) : Operand × Bool := (.d, dOf w == 0)
def aZero (w : Word) : Operand × Bool := (.a, aOf w == 0)
def bZero (w : Word) : Operand × Bool := (.b, bOf w == 0)

/-- No field used: NOP. -/
def shapeNone (w : Word) (i : Instr) : Except DecodeError Instr := do
  checkReserved [auxZero w, dZero w, aZero w, bZero w]
  pure i

/-- A used. -/
def shapeA (w : Word) (mk : SlotAddr → Instr) : Except DecodeError Instr := do
  checkReserved [auxZero w, dZero w, bZero w]
  pure (mk (aOf w))

/-- A and B used. -/
def shapeAB (w : Word) (mk : SlotAddr → SlotAddr → Instr) : Except DecodeError Instr := do
  checkReserved [auxZero w, dZero w]
  pure (mk (aOf w) (bOf w))

/-- D and A used. -/
def shapeDA (w : Word) (mk : SlotAddr → SlotAddr → Instr) : Except DecodeError Instr := do
  checkReserved [auxZero w, bZero w]
  pure (mk (dOf w) (aOf w))

/-- D, A and B used. -/
def shapeDAB (w : Word) (mk : SlotAddr → SlotAddr → SlotAddr → Instr) : Except DecodeError Instr := do
  checkReserved [auxZero w]
  pure (mk (dOf w) (aOf w) (bOf w))

/-- D, A and AUX used; `legal` is the range of AUX, which is checked first (R73, R175). -/
def shapeDAAux (w : Word) (legal : Bool) (mk : SlotAddr → SlotAddr → BitVec 8 → Instr) :
    Except DecodeError Instr := do
  checkReserved [(.none, legal), bZero w]
  pure (mk (dOf w) (aOf w) (auxOf w))

/-- D and AUX used; `legal` is the range of AUX (R73, R171). -/
def shapeDAux (w : Word) (legal : Bool) (mk : SlotAddr → BitVec 8 → Instr) : Except DecodeError Instr := do
  checkReserved [(.none, legal), aZero w, bZero w]
  pure (mk (dOf w) (auxOf w))

/-- The decoder (R72, R73): every word either stands for one command or is rejected with a named error. -/
def decode (w : Word) : Except DecodeError Instr :=
  match (opcOf w).toNat with
  | 0x00 => shapeNone w .nop
  | 0x01 => shapeDAAux w true .copy
  | 0x02 => shapeDAux w (decide ((auxOf w).toNat < 10)) .ldc
  | 0x10 => shapeDAB w .fpAdd
  | 0x11 => shapeDAB w .fpSub
  | 0x12 => shapeDA w .fpDbl
  | 0x13 => shapeDA w .fpNeg
  | 0x14 => shapeDAB w .fpMul
  | 0x15 => shapeDA w .fpSqr
  | 0x16 => shapeDA w .fpTomont
  | 0x17 => shapeDA w .fpFrommont
  | 0x18 => shapeDA w .fpInv
  | 0x19 => shapeDA w .fpSqrt
  | 0x1A => shapeA w .fpIsqnr
  | 0x1B => shapeAB w .fpEq
  | 0x1C => shapeA w .fpIszero
  | 0x20 => shapeDAB w .fp2Add
  | 0x21 => shapeDAB w .fp2Sub
  | 0x22 => shapeDA w .fp2Dbl
  | 0x23 => shapeDA w .fp2Neg
  | 0x24 => shapeDAB w .fp2Mul
  | 0x25 => shapeDA w .fp2Sqr
  | 0x26 => shapeDA w .fp2Inv
  | 0x27 => shapeDA w .fp2Conj
  | 0x28 => shapeDAAux w true .fp2Frob
  | 0x29 => shapeAB w .fp2Eq
  | 0x30 => shapeDAB w .fp6Add
  | 0x31 => shapeDAB w .fp6Sub
  | 0x32 => shapeDA w .fp6Dbl
  | 0x33 => shapeDA w .fp6Neg
  | 0x34 => shapeDAB w .fp6Mul
  | 0x35 => shapeDA w .fp6Sqr
  | 0x36 => shapeDA w .fp6Inv
  | 0x37 => shapeDAAux w true .fp6Frob
  | 0x38 => shapeDAB w .fp6Mulby01
  | 0x39 => shapeDAB w .fp6Mulby1
  | 0x3A => shapeAB w .fp6Eq
  | 0x40 => shapeDAB w .fp12Add
  | 0x41 => shapeDAB w .fp12Sub
  | 0x42 => shapeDA w .fp12Dbl
  | 0x43 => shapeDA w .fp12Neg
  | 0x44 => shapeDAB w .fp12Mul
  | 0x45 => shapeDA w .fp12Sqr
  | 0x46 => shapeDA w .fp12Inv
  | 0x47 => shapeDA w .fp12Conj
  | 0x48 => shapeDAAux w true .fp12Frob
  | 0x49 => shapeDAB w .fp12Mulby014
  | 0x4A => shapeDAB w .fp12Mulby034
  | 0x4B => shapeDA w .fp12Csqr
  | 0x4C => shapeAB w .fp12Eq
  | 0x50 => shapeDAB w .g1Add
  | 0x51 => shapeDAB w .g1Addm
  | 0x52 => shapeDA w .g1Dbl
  | 0x53 => shapeDA w .g1Neg
  | 0x54 => shapeDAB w .g1Sub
  | 0x55 => shapeDAB w .g1Mul
  | 0x56 => shapeAB w .g1Eq
  | 0x57 => shapeA w .g1Iszero
  | 0x58 => shapeA w .g1Oncurve
  | 0x59 => shapeA w .g1Insub
  | 0x5A => shapeA w .g1Check
  | 0x5B => shapeDA w .g1Affine
  | 0x5C => shapeDA w .g1Affb
  | 0x5D => shapeDAB w .g1Msm
  | 0x5E => shapeA w .g1Isaffine
  | 0x5F => shapeDAB w .g1Mulct
  | 0x60 => shapeDAB w .g2Add
  | 0x61 => shapeDAB w .g2Addm
  | 0x62 => shapeDA w .g2Dbl
  | 0x63 => shapeDA w .g2Neg
  | 0x64 => shapeDAB w .g2Sub
  | 0x65 => shapeDAB w .g2Mul
  | 0x66 => shapeAB w .g2Eq
  | 0x67 => shapeA w .g2Iszero
  | 0x68 => shapeA w .g2Oncurve
  | 0x69 => shapeA w .g2Insub
  | 0x6A => shapeA w .g2Check
  | 0x6B => shapeDA w .g2Affine
  | 0x6C => shapeDA w .g2Affb
  | 0x6D => shapeDAB w .g2Msm
  | 0x6E => shapeA w .g2Isaffine
  | 0x6F => shapeDAB w .g2Mulct
  | 0x70 => shapeDAB w .miller
  | 0x71 => shapeDA w .finalexp
  | 0x72 => shapeDAB w .pair
  | 0x73 => shapeAB w .pcheck
  | 0x74 => shapeDA w .cexp
  | 0x80 => shapeDAAux w (decide (2 ≤ (auxOf w).toNat) && decide ((auxOf w).toNat ≤ 8)) .wnaf
  | 0x81 => shapeDA w .fromwnaf
  | _ => .error .illegalOpcode

/-- The instruction the decoder reads from a command whose bits, as the opcode table numbers them, are `w`: a command
is one 64-bit word, and the bits above `nbits` are 0. -/
def decodeTableWord (nbits w : Nat) : Option Instr :=
  (decode (BitVec.ofNat 64 (w % 2 ^ nbits))).toOption

/-! ### The encoder -/

/-- The fields of a command: its opcode and, for each other field, its value where the opcode uses it (R72). -/
structure Form where
  opc : BitVec 8
  aux : Option (BitVec 8)
  d : Option SlotAddr
  a : Option SlotAddr
  b : Option SlotAddr
  deriving DecidableEq, Repr

/-- The opcode map of R72, read from a command. -/
def form : Instr → Form
  | .nop => ⟨0x00, none, none, none, none⟩
  | .copy d a k => ⟨0x01, some k, some d, some a, none⟩
  | .ldc d k => ⟨0x02, some k, some d, none, none⟩
  | .fpAdd d a b => ⟨0x10, none, some d, some a, some b⟩
  | .fpSub d a b => ⟨0x11, none, some d, some a, some b⟩
  | .fpDbl d a => ⟨0x12, none, some d, some a, none⟩
  | .fpNeg d a => ⟨0x13, none, some d, some a, none⟩
  | .fpMul d a b => ⟨0x14, none, some d, some a, some b⟩
  | .fpSqr d a => ⟨0x15, none, some d, some a, none⟩
  | .fpTomont d a => ⟨0x16, none, some d, some a, none⟩
  | .fpFrommont d a => ⟨0x17, none, some d, some a, none⟩
  | .fpInv d a => ⟨0x18, none, some d, some a, none⟩
  | .fpSqrt d a => ⟨0x19, none, some d, some a, none⟩
  | .fpIsqnr a => ⟨0x1A, none, none, some a, none⟩
  | .fpEq a b => ⟨0x1B, none, none, some a, some b⟩
  | .fpIszero a => ⟨0x1C, none, none, some a, none⟩
  | .fp2Add d a b => ⟨0x20, none, some d, some a, some b⟩
  | .fp2Sub d a b => ⟨0x21, none, some d, some a, some b⟩
  | .fp2Dbl d a => ⟨0x22, none, some d, some a, none⟩
  | .fp2Neg d a => ⟨0x23, none, some d, some a, none⟩
  | .fp2Mul d a b => ⟨0x24, none, some d, some a, some b⟩
  | .fp2Sqr d a => ⟨0x25, none, some d, some a, none⟩
  | .fp2Inv d a => ⟨0x26, none, some d, some a, none⟩
  | .fp2Conj d a => ⟨0x27, none, some d, some a, none⟩
  | .fp2Frob d a k => ⟨0x28, some k, some d, some a, none⟩
  | .fp2Eq a b => ⟨0x29, none, none, some a, some b⟩
  | .fp6Add d a b => ⟨0x30, none, some d, some a, some b⟩
  | .fp6Sub d a b => ⟨0x31, none, some d, some a, some b⟩
  | .fp6Dbl d a => ⟨0x32, none, some d, some a, none⟩
  | .fp6Neg d a => ⟨0x33, none, some d, some a, none⟩
  | .fp6Mul d a b => ⟨0x34, none, some d, some a, some b⟩
  | .fp6Sqr d a => ⟨0x35, none, some d, some a, none⟩
  | .fp6Inv d a => ⟨0x36, none, some d, some a, none⟩
  | .fp6Frob d a k => ⟨0x37, some k, some d, some a, none⟩
  | .fp6Mulby01 d a b => ⟨0x38, none, some d, some a, some b⟩
  | .fp6Mulby1 d a b => ⟨0x39, none, some d, some a, some b⟩
  | .fp6Eq a b => ⟨0x3A, none, none, some a, some b⟩
  | .fp12Add d a b => ⟨0x40, none, some d, some a, some b⟩
  | .fp12Sub d a b => ⟨0x41, none, some d, some a, some b⟩
  | .fp12Dbl d a => ⟨0x42, none, some d, some a, none⟩
  | .fp12Neg d a => ⟨0x43, none, some d, some a, none⟩
  | .fp12Mul d a b => ⟨0x44, none, some d, some a, some b⟩
  | .fp12Sqr d a => ⟨0x45, none, some d, some a, none⟩
  | .fp12Inv d a => ⟨0x46, none, some d, some a, none⟩
  | .fp12Conj d a => ⟨0x47, none, some d, some a, none⟩
  | .fp12Frob d a k => ⟨0x48, some k, some d, some a, none⟩
  | .fp12Mulby014 d a b => ⟨0x49, none, some d, some a, some b⟩
  | .fp12Mulby034 d a b => ⟨0x4A, none, some d, some a, some b⟩
  | .fp12Csqr d a => ⟨0x4B, none, some d, some a, none⟩
  | .fp12Eq a b => ⟨0x4C, none, none, some a, some b⟩
  | .g1Add d a b => ⟨0x50, none, some d, some a, some b⟩
  | .g1Addm d a b => ⟨0x51, none, some d, some a, some b⟩
  | .g1Dbl d a => ⟨0x52, none, some d, some a, none⟩
  | .g1Neg d a => ⟨0x53, none, some d, some a, none⟩
  | .g1Sub d a b => ⟨0x54, none, some d, some a, some b⟩
  | .g1Mul d a b => ⟨0x55, none, some d, some a, some b⟩
  | .g1Eq a b => ⟨0x56, none, none, some a, some b⟩
  | .g1Iszero a => ⟨0x57, none, none, some a, none⟩
  | .g1Oncurve a => ⟨0x58, none, none, some a, none⟩
  | .g1Insub a => ⟨0x59, none, none, some a, none⟩
  | .g1Check a => ⟨0x5A, none, none, some a, none⟩
  | .g1Affine d a => ⟨0x5B, none, some d, some a, none⟩
  | .g1Affb d a => ⟨0x5C, none, some d, some a, none⟩
  | .g1Msm d a b => ⟨0x5D, none, some d, some a, some b⟩
  | .g1Isaffine a => ⟨0x5E, none, none, some a, none⟩
  | .g1Mulct d a b => ⟨0x5F, none, some d, some a, some b⟩
  | .g2Add d a b => ⟨0x60, none, some d, some a, some b⟩
  | .g2Addm d a b => ⟨0x61, none, some d, some a, some b⟩
  | .g2Dbl d a => ⟨0x62, none, some d, some a, none⟩
  | .g2Neg d a => ⟨0x63, none, some d, some a, none⟩
  | .g2Sub d a b => ⟨0x64, none, some d, some a, some b⟩
  | .g2Mul d a b => ⟨0x65, none, some d, some a, some b⟩
  | .g2Eq a b => ⟨0x66, none, none, some a, some b⟩
  | .g2Iszero a => ⟨0x67, none, none, some a, none⟩
  | .g2Oncurve a => ⟨0x68, none, none, some a, none⟩
  | .g2Insub a => ⟨0x69, none, none, some a, none⟩
  | .g2Check a => ⟨0x6A, none, none, some a, none⟩
  | .g2Affine d a => ⟨0x6B, none, some d, some a, none⟩
  | .g2Affb d a => ⟨0x6C, none, some d, some a, none⟩
  | .g2Msm d a b => ⟨0x6D, none, some d, some a, some b⟩
  | .g2Isaffine a => ⟨0x6E, none, none, some a, none⟩
  | .g2Mulct d a b => ⟨0x6F, none, some d, some a, some b⟩
  | .miller d a b => ⟨0x70, none, some d, some a, some b⟩
  | .finalexp d a => ⟨0x71, none, some d, some a, none⟩
  | .pair d a b => ⟨0x72, none, some d, some a, some b⟩
  | .pcheck a b => ⟨0x73, none, none, some a, some b⟩
  | .cexp d a => ⟨0x74, none, some d, some a, none⟩
  | .wnaf d a k => ⟨0x80, some k, some d, some a, none⟩
  | .fromwnaf d a => ⟨0x81, none, some d, some a, none⟩

/-- The opcode of a command (R72). -/
def opcode (i : Instr) : BitVec 8 := (form i).opc

/-- The word of a command: a field the opcode does not use is 0 (R65, R66). -/
def encode (i : Instr) : Word :=
  let f := form i
  commandWord f.opc (f.aux.getD 0) (f.d.getD 0) (f.a.getD 0) (f.b.getD 0)

/-- The mask of an opcode: OPC together with every field the opcode does not use (R74). -/
def maskOf (i : Instr) : Word :=
  let f := form i
  commandWord 0xFF (if f.aux.isSome then 0 else 0xFF) (if f.d.isSome then 0 else 0xFFFF)
    (if f.a.isSome then 0 else 0xFFFF) (if f.b.isSome then 0 else 0xFFFF)

/-- The match of an opcode: its OPC alone (R74). -/
def matchOf (i : Instr) : Word := (opcode i).setWidth 64

/-! ### Assembler form (R75) -/

/-- The mnemonic of a command (R72). -/
def mnemonic : Instr → String
  | .nop => "NOP"
  | .copy _ _ _ => "COPY"
  | .ldc _ _ => "LDC"
  | .fpAdd _ _ _ => "FP.ADD"
  | .fpSub _ _ _ => "FP.SUB"
  | .fpDbl _ _ => "FP.DBL"
  | .fpNeg _ _ => "FP.NEG"
  | .fpMul _ _ _ => "FP.MUL"
  | .fpSqr _ _ => "FP.SQR"
  | .fpTomont _ _ => "FP.TOMONT"
  | .fpFrommont _ _ => "FP.FROMMONT"
  | .fpInv _ _ => "FP.INV"
  | .fpSqrt _ _ => "FP.SQRT"
  | .fpIsqnr _ => "FP.ISQNR"
  | .fpEq _ _ => "FP.EQ"
  | .fpIszero _ => "FP.ISZERO"
  | .fp2Add _ _ _ => "FP2.ADD"
  | .fp2Sub _ _ _ => "FP2.SUB"
  | .fp2Dbl _ _ => "FP2.DBL"
  | .fp2Neg _ _ => "FP2.NEG"
  | .fp2Mul _ _ _ => "FP2.MUL"
  | .fp2Sqr _ _ => "FP2.SQR"
  | .fp2Inv _ _ => "FP2.INV"
  | .fp2Conj _ _ => "FP2.CONJ"
  | .fp2Frob _ _ _ => "FP2.FROB"
  | .fp2Eq _ _ => "FP2.EQ"
  | .fp6Add _ _ _ => "FP6.ADD"
  | .fp6Sub _ _ _ => "FP6.SUB"
  | .fp6Dbl _ _ => "FP6.DBL"
  | .fp6Neg _ _ => "FP6.NEG"
  | .fp6Mul _ _ _ => "FP6.MUL"
  | .fp6Sqr _ _ => "FP6.SQR"
  | .fp6Inv _ _ => "FP6.INV"
  | .fp6Frob _ _ _ => "FP6.FROB"
  | .fp6Mulby01 _ _ _ => "FP6.MULBY01"
  | .fp6Mulby1 _ _ _ => "FP6.MULBY1"
  | .fp6Eq _ _ => "FP6.EQ"
  | .fp12Add _ _ _ => "FP12.ADD"
  | .fp12Sub _ _ _ => "FP12.SUB"
  | .fp12Dbl _ _ => "FP12.DBL"
  | .fp12Neg _ _ => "FP12.NEG"
  | .fp12Mul _ _ _ => "FP12.MUL"
  | .fp12Sqr _ _ => "FP12.SQR"
  | .fp12Inv _ _ => "FP12.INV"
  | .fp12Conj _ _ => "FP12.CONJ"
  | .fp12Frob _ _ _ => "FP12.FROB"
  | .fp12Mulby014 _ _ _ => "FP12.MULBY014"
  | .fp12Mulby034 _ _ _ => "FP12.MULBY034"
  | .fp12Csqr _ _ => "FP12.CSQR"
  | .fp12Eq _ _ => "FP12.EQ"
  | .g1Add _ _ _ => "G1.ADD"
  | .g1Addm _ _ _ => "G1.ADDM"
  | .g1Dbl _ _ => "G1.DBL"
  | .g1Neg _ _ => "G1.NEG"
  | .g1Sub _ _ _ => "G1.SUB"
  | .g1Mul _ _ _ => "G1.MUL"
  | .g1Eq _ _ => "G1.EQ"
  | .g1Iszero _ => "G1.ISZERO"
  | .g1Oncurve _ => "G1.ONCURVE"
  | .g1Insub _ => "G1.INSUB"
  | .g1Check _ => "G1.CHECK"
  | .g1Affine _ _ => "G1.AFFINE"
  | .g1Affb _ _ => "G1.AFFB"
  | .g1Msm _ _ _ => "G1.MSM"
  | .g1Isaffine _ => "G1.ISAFFINE"
  | .g1Mulct _ _ _ => "G1.MULCT"
  | .g2Add _ _ _ => "G2.ADD"
  | .g2Addm _ _ _ => "G2.ADDM"
  | .g2Dbl _ _ => "G2.DBL"
  | .g2Neg _ _ => "G2.NEG"
  | .g2Sub _ _ _ => "G2.SUB"
  | .g2Mul _ _ _ => "G2.MUL"
  | .g2Eq _ _ => "G2.EQ"
  | .g2Iszero _ => "G2.ISZERO"
  | .g2Oncurve _ => "G2.ONCURVE"
  | .g2Insub _ => "G2.INSUB"
  | .g2Check _ => "G2.CHECK"
  | .g2Affine _ _ => "G2.AFFINE"
  | .g2Affb _ _ => "G2.AFFB"
  | .g2Msm _ _ _ => "G2.MSM"
  | .g2Isaffine _ => "G2.ISAFFINE"
  | .g2Mulct _ _ _ => "G2.MULCT"
  | .miller _ _ _ => "MILLER"
  | .finalexp _ _ => "FINALEXP"
  | .pair _ _ _ => "PAIR"
  | .pcheck _ _ => "PCHECK"
  | .cexp _ _ => "CEXP"
  | .wnaf _ _ _ => "WNAF"
  | .fromwnaf _ _ => "FROMWNAF"

/-- The immediate an assembler line shows: COPY shows n = AUX + 1, the others AUX itself (R75). -/
def immediateOf (f : Form) : Option Nat :=
  f.aux.map fun x => if f.opc = 0x01 then x.toNat + 1 else x.toNat

/-- `MNEMONIC operands`: operands in the order D, A, B, then the immediate, unused fields omitted (R75). -/
def assembly (i : Instr) : String :=
  let f := form i
  let slots := [f.d, f.a, f.b].filterMap (Option.map fun s : SlotAddr => "s" ++ toString s.toNat)
  let imm := (immediateOf f).toList.map fun n => "#" ++ toString n
  match slots ++ imm with
  | [] => mnemonic i
  | operands => mnemonic i ++ " " ++ String.intercalate ", " operands

/-! ### Pseudo-commands (R76): each is one real command -/

def pseudoMov (d a : SlotAddr) : Instr := .copy d a 0
def pseudoLdZero (d : SlotAddr) : Instr := .ldc d 0
def pseudoLdOne (d : SlotAddr) : Instr := .ldc d 1
def pseudoLdG1 (d : SlotAddr) : Instr := .ldc d 2
def pseudoLdG2 (d : SlotAddr) : Instr := .ldc d 3
def pseudoLdG1Id (d : SlotAddr) : Instr := .ldc d 4
def pseudoLdG2Id (d : SlotAddr) : Instr := .ldc d 5
def pseudoLdGtOne (d : SlotAddr) : Instr := .ldc d 6
def pseudoG1Mov (d a : SlotAddr) : Instr := .copy d a 2
def pseudoG2Mov (d a : SlotAddr) : Instr := .copy d a 5

end Sys2Proof
end

