-- ==== Sys2Proof/Machine/State.lean ====
section
/-! DEFINITION. The state of the block (10_state.md), its reset (R40), and the reasons a step can stop. -/

namespace Sys2Proof.Machine

/-- Why the machine stops. A failing COMMAND is no fault: it completes with an error code (R172). -/
inductive Fault where
  /-- A command or a host read uses operand memory that nothing has written since hard reset (R40, R183, D37, U1).
  Raised by reading a slot or a limb; safe: the hardware goes on with some value that no rule fixes. -/
  | unwrittenSlot (slot : Nat)
  deriving DecidableEq, Repr

/-- Why a step has no meaning. -/
inductive Refusal where
  /-- The instruction has no meaning yet. Raised by an arm of `exec` only; safe. No arm does: every command of the
  opcode map has its meaning. -/
  | notModelled (mnemonic : String)
  deriving DecidableEq, Repr

/-- The values of ERRCODE.CODE (R173). Codes 10 to 255 are never produced (U11), so they have no name. -/
inductive ErrCode where
  | none | illegalOpcode | reservedField | shape | addressRange | outOfField | notAffine | nonsquare | offCurve
  | wrongSubgroup
  deriving DecidableEq, Repr

/-- ERRINFO without its reserved bits, which read 0 (R32). -/
structure ErrInfo where
  opc : BitVec 8
  opnd : Operand
  slot : SlotAddr
  index : BitVec 32
  deriving DecidableEq, Repr

/-- The ERRINFO of reset and of acceptance: 0 (R32, R40). -/
def ErrInfo.zero : ErrInfo := ⟨0, .none, 0, 0⟩

/-- The two agents (R20). -/
inductive Agent where
  | host | sequencer
  deriving DecidableEq, Repr

/-- What the outside can do to the block (R186): an access on the host port, with its width in bytes (R43), or the
hard-reset input (R181). -/
inductive HostEvent where
  | read (addr : HostAddr) (width : Nat)
  | write (addr : HostAddr) (width : Nat) (value : Word)
  | hardReset
  deriving DecidableEq, Repr

/-- What the host gets back from an access (R43, R177, R186). -/
inductive Answer where
  | data (value : Word)
  | written
  | busError
  deriving DecidableEq, Repr

/-- The bytes of operand memory that have been written, keyed by their offset in the host address space (R42, R44,
R45), in rising order. An unlisted byte holds no value (R40). -/
abbrev Memory := List Host.Cell

/-- The canonical form of a memory: addresses strictly rising. No byte is a default, so every listed one stays. -/
abbrev Memory.wf (m : Memory) : Prop := m.Pairwise fun x y => x.1 < y.1

/-- The state of the block. Every register of R25 has its field, but for ID, which is a constant, and STATUS.ERR,
which is not separate storage (R29). -/
structure State where
  /-- PARAMS (R27): NSLOTS in 31:0, MAXCOUNT in 63:32. No step changes it. -/
  params : Word
  /-- CTRL.IRQ_EN (R28). -/
  irqEn : Bool
  /-- STATUS.BUSY (R29): the sequencer's phase (R39). -/
  busy : Bool
  /-- STATUS.DONE (R29). -/
  done : Bool
  /-- STATUS.FLAG (R30). -/
  flag : Bool
  /-- STATUS.STICKY_ERR (R29). -/
  stickyErr : Bool
  /-- ERRCODE.CODE (R31). -/
  errCode : ErrCode
  /-- ERRINFO (R32). -/
  errInfo : ErrInfo
  /-- COUNT.N (R33). -/
  count : BitVec 32
  /-- RESULT (R34). -/
  result : Word
  /-- The last accepted command word (R35): the CMD read-back and the sequencer's latched word (R39, R69). -/
  cmd : Word
  /-- COUNT.N as latched at acceptance (R33, R39). -/
  countLatch : BitVec 32
  /-- Operand memory (R21). -/
  om : Memory
  /-- The model's own field (log 5): which agent moves next while a command runs. -/
  sched : List Agent
  /-- The model's own field (log 6): what the host is still to do, oldest first. -/
  host : List HostEvent
  /-- The accesses held without a response, oldest first (R48, R182). -/
  stalled : List HostEvent
  /-- The model's own field (log 6): what the host got back, newest first. -/
  answers : List Answer
  deriving DecidableEq, Repr

/-- PARAMS from its two fields (R27). -/
def paramsWord (nSlots maxCount : Nat) : Word := BitVec.ofNat 32 maxCount ++ BitVec.ofNat 32 nSlots

/-- The block right after hard reset (R40, R181) with the implementation parameters `params`, which are OPEN (R5), and
nothing for the host to do. Operand memory holds no value. -/
def State.resetWith (params : Word) : State where
  params := params
  irqEn := false
  busy := false
  done := false
  flag := false
  stickyErr := false
  errCode := .none
  errInfo := .zero
  count := 0
  result := 0
  cmd := 0
  countLatch := 0
  om := []
  sched := []
  host := []
  stalled := []
  answers := []

/-- The machine right after reset (R40). DESIGN CHOICE (log 2): N_SLOTS and MAX_COUNT are those of the vectors of
95_test_vectors.md. DESIGN CHOICE (log 5, log 6): the model's own lists are empty. -/
def State.reset : State := State.resetWith (paramsWord Config.resetSlots Config.resetMaxCount)

end Sys2Proof.Machine
end

