-- ==== Sys2Proof/Machine/Flags.lean ====
section
/-! DEFINITION. The status words and the interrupt output, computed from the state (R27, R29, R31, R32, R37). -/

namespace Sys2Proof.Machine

/-- ERRCODE.CODE as a number (R173). -/
def ErrCode.number : ErrCode → BitVec 8
  | .none => 0
  | .illegalOpcode => 1
  | .reservedField => 2
  | .shape => 3
  | .addressRange => 4
  | .outOfField => 5
  | .notAffine => 6
  | .nonsquare => 7
  | .offCurve => 8
  | .wrongSubgroup => 9

/-- STATUS.ERR reads 1 exactly when ERRCODE ≠ 0 (R29). -/
def errFlag (s : State) : Bool := s.errCode != .none

/-- STATUS (R29): BUSY 0, DONE 1, FLAG 2, ERR 3, STICKY_ERR 4, the other bits 0. -/
def statusWord (s : State) : Word :=
  (BitVec.ofBool s.stickyErr ++ BitVec.ofBool (errFlag s) ++ BitVec.ofBool s.flag ++ BitVec.ofBool s.done ++
    BitVec.ofBool s.busy).setWidth 64

/-- ERRCODE (R31): CODE in 7:0, the other bits 0. -/
def errCodeWord (s : State) : Word := s.errCode.number.setWidth 64

/-- ERRINFO as a word (R32): OPC 7:0, OPND 9:8, 15:10 reserved, SLOT 31:16, INDEX 63:32. -/
def ErrInfo.word (e : ErrInfo) : Word := e.index ++ e.slot ++ (0 : BitVec 6) ++ e.opnd.code ++ e.opc

/-- CTRL (R28): IRQ_EN in bit 0; SRST and the reserved bits read 0. -/
def ctrlWord (s : State) : Word := (BitVec.ofBool s.irqEn).setWidth 64

/-- The interrupt output (R37, R179). -/
def irq (s : State) : Bool := s.irqEn && s.done

/-- PARAMS.NSLOTS (R27): the number of slots. -/
def State.nSlots (s : State) : Nat := (s.params.extractLsb' 0 32).toNat

/-- PARAMS.MAXCOUNT (R27): the longest list a command accepts. -/
def State.maxCount (s : State) : Nat := (s.params.extractLsb' 32 32).toNat

end Sys2Proof.Machine
end

