-- ==== Sys2Proof/Machine/Ops.lean ====
section
/-! DEFINITION. The named operations: over operand memory (R21, R44, R45), and over the life of a command: acceptance,
successful completion, completion with an error (R69, R172, R176), soft and hard reset (R181, R182). -/

namespace Sys2Proof.Machine

/-! ### Bytes -/

/-- The `n` low bytes of a number, least significant first (R45). -/
def bytesOf : Nat → Nat → List Byte
  | 0, _ => []
  | n + 1, v => BitVec.ofNat 8 v :: bytesOf n (v / 256)

/-- The number of a list of bytes, least significant first (R45). -/
def ofBytes : List Byte → Nat
  | [] => 0
  | b :: bs => b.toNat + 256 * ofBytes bs

/-! ### Operand memory -/

/-- One byte, or nothing where none has been written (R40). -/
def Memory.read (m : Memory) (addr : Nat) : Option Byte :=
  match m with
  | [] => none
  | (x, v) :: rest => if x = addr then some v else Memory.read rest addr

/-- Writing one byte: the list stays in rising order. -/
def Memory.write (m : Memory) (addr : Nat) (value : Byte) : Memory :=
  match m with
  | [] => [(addr, value)]
  | (x, v) :: rest =>
    if addr < x then (addr, value) :: (x, v) :: rest
    else if addr = x then (addr, value) :: rest
    else (x, v) :: Memory.write rest addr value

/-- The `n` bytes from an address on, if every one of them has been written. -/
def Memory.readBytes (m : Memory) (addr : Nat) : Nat → Option (List Byte)
  | 0 => some []
  | n + 1 =>
    match Memory.read m addr, Memory.readBytes m (addr + 1) n with
    | some b, some bs => some (b :: bs)
    | _, _ => none

/-- Writing bytes from an address on. -/
def Memory.writeBytes (m : Memory) (addr : Nat) : List Byte → Memory
  | [] => m
  | b :: bs => Memory.writeBytes (Memory.write m addr b) (addr + 1) bs

/-- The bytes of one slot, and of one limb (R5, R21). -/
def slotBytes : Nat := 48
def limbBytes : Nat := 8

/-- The host offset of slot s: `0x100000 + 48·s` (R42, R44). -/
def slotAddress (s : Nat) : Nat := Config.omBase + slotBytes * s

/-- The contents of slot s, if all of it has been written (R21, R44, R45). -/
def Memory.readSlot (m : Memory) (s : Nat) : Option SlotWord :=
  (Memory.readBytes m (slotAddress s) slotBytes).map fun bs => BitVec.ofNat 384 (ofBytes bs)

/-- Writing slot s. -/
def Memory.writeSlot (m : Memory) (s : Nat) (v : SlotWord) : Memory :=
  Memory.writeBytes m (slotAddress s) (bytesOf slotBytes v.toNat)

/-- The 64 bits at a host offset, if they have been written (R44). -/
def Memory.readLimb (m : Memory) (addr : Nat) : Option Word :=
  (Memory.readBytes m addr limbBytes).map fun bs => BitVec.ofNat 64 (ofBytes bs)

/-- Writing the 64 bits at a host offset: the other limbs of the slot stay (R44). -/
def Memory.writeLimb (m : Memory) (addr : Nat) (v : Word) : Memory :=
  Memory.writeBytes m addr (bytesOf limbBytes v.toNat)

/-- The staged writes of a command: a slot and its new contents each (R69). -/
abbrev Writes := List (Nat × SlotWord)

/-- `ws` from slot `base` on. -/
def place (base : Nat) : List SlotWord → Writes
  | [] => []
  | w :: ws => (base, w) :: place (base + 1) ws

/-- Committing the staged writes (R69, R70). -/
def Memory.commit (m : Memory) : Writes → Memory
  | [] => m
  | (s, v) :: rest => Memory.commit (Memory.writeSlot m s v) rest

/-- The contents of slot s (R21). -/
def State.slot (s : State) (n : Nat) : Option SlotWord := Memory.readSlot s.om n

/-! ### The end of a command -/

/-- What a command raises: `raise Error(code, info)`, without the OPC, which the completion adds (R173, R176). -/
structure CmdError where
  code : ErrCode
  opnd : Operand
  slot : SlotAddr
  index : BitVec 32
  deriving DecidableEq, Repr

/-- Why a command produces no effect: it raises an error, or it uses memory that nothing has written (D37). -/
inductive Stop where
  | raise (e : CmdError)
  | fault (f : Fault)
  deriving DecidableEq, Repr

/-- What a successful command does: its staged writes, FLAG and RESULT (R69 step 3). -/
structure Effect where
  writes : Writes := []
  flag : Bool := false
  result : Word := 0
  deriving DecidableEq, Repr

/-- Acceptance of the word w (R69 step 1): latch w and COUNT.N, clear DONE, ERRCODE, ERRINFO, FLAG and RESULT, set BUSY. -/
def State.accept (s : State) (w : Word) : State :=
  { s with
    cmd := w
    countLatch := s.count
    done := false
    errCode := .none
    errInfo := .zero
    flag := false
    result := 0
    busy := true }

/-- Completion with success (R69 step 4): commit every staged write, set FLAG and RESULT, BUSY ← 0, DONE ← 1.
ERRCODE is 0 (R31), so STICKY_ERR keeps its value. The latched COUNT is dropped (R39, log 4). -/
def State.succeed (s : State) (e : Effect) : State :=
  { s with
    busy := false
    done := true
    flag := e.flag
    result := e.result
    errCode := .none
    countLatch := 0
    om := Memory.commit s.om e.writes }

/-- Completion with an error (R69 step 4, R176): ERRCODE and ERRINFO are set, no OM write is committed, FLAG and RESULT
keep the 0 of acceptance, BUSY ← 0, DONE ← 1, STICKY_ERR ← 1. -/
def State.failWith (s : State) (opc : BitVec 8) (e : CmdError) : State :=
  { s with
    busy := false
    done := true
    stickyErr := true
    errCode := e.code
    errInfo := ⟨opc, e.opnd, e.slot, e.index⟩
    countLatch := 0 }

/-- The end of a command: success, exactly one error, or the model's fault (R69, R172). -/
def finish (opc : BitVec 8) (s : State) : Except Stop Effect → Host.Outcome State Fault Refusal
  | .ok e => .next (s.succeed e)
  | .error (.raise e) => .next (s.failWith opc e)
  | .error (.fault f) => .fault f

/-- The completion of a word that stands for no command (R73, R173): ILLEGAL_OPCODE or RESERVED_FIELD. -/
def State.rejectWord (s : State) (e : DecodeError) : State :=
  match e with
  | .illegalOpcode => s.failWith (opcOf s.cmd) ⟨.illegalOpcode, .none, 0, 0⟩
  | .reservedField f => s.failWith (opcOf s.cmd) ⟨.reservedField, f, 0, 0⟩

/-! ### Resets -/

/-- The soft reset (R182): the running command is abandoned without a completion, the CSRs become 0, OM stays. The
accesses held behind it stay and are performed next. -/
def State.softReset (s : State) : State :=
  { s with
    irqEn := false
    busy := false
    done := false
    flag := false
    stickyErr := false
    errCode := .none
    errInfo := .zero
    count := 0
    result := 0
    cmd := 0
    countLatch := 0 }

/-- The hard reset (R40, R181): the soft reset's values, and OM holds no value any more.
DESIGN CHOICE (log 11), unsafe: what the port holds when a running command is reset away stays held and is performed
against the reset state, as in R182. -/
def State.hardReset (s : State) : State := { s.softReset with om := [] }

end Sys2Proof.Machine
end

