-- ==== Sys2Proof/Machine/Field.lean ====
section
/-! DEFINITION. The base field Fp and its unit (40_fp.md): values, Montgomery words, the multiplier, the modular adder
and the almost-inverse. -/

namespace Sys2Proof.Machine

/-- A number in [0, p): a field value (R15) or a canonical word (R17). `+`, `−` and `*` are the field's (R15). -/
abbrev Fp := Fin Config.p

/-- The field value of an integer. -/
def Fp.ofNat (n : Nat) : Fp := ⟨n % Config.p, Nat.mod_lt _ Config.p_pos⟩

def Fp.zero : Fp := Fp.ofNat 0
def Fp.one : Fp := Fp.ofNat 1

/-- −x (R15). -/
def Fp.neg (x : Fp) : Fp := Fp.zero - x

/-- 2·x. -/
def Fp.dbl (x : Fp) : Fp := x + x

/-- `mont(a) = a·R mod p`, the Montgomery word of a value (R14, R17). -/
def mont (a : Fp) : Fp := ⟨a.val * Config.radix % Config.p, Nat.mod_lt _ Config.p_pos⟩

/-- `val(w) = w·R^(−1) mod p`, the value of a Montgomery word (R14). -/
def valOf (w : Fp) : Fp := ⟨w.val * Config.radixInv % Config.p, Nat.mod_lt _ Config.p_pos⟩

/-- The slot contents of a canonical word. -/
def Fp.slotWord (w : Fp) : SlotWord := BitVec.ofNat 384 w.val

/-- Square-and-multiply over the bits of the exponent, most significant first; `fuel` bounds the bits. -/
def powFuel {α : Type} (mul : α → α → α) (one x : α) : Nat → Nat → α
  | 0, _ => one
  | fuel + 1, e =>
    if e = 0 then one
    else
      let h := powFuel mul one x fuel (e / 2)
      let sq := mul h h
      if e % 2 = 1 then mul sq x else sq

/-- `a^e` in Fp (R15), for exponents below 2^384. -/
def Fp.pow (a : Fp) (e : Nat) : Fp := powFuel (fun x y : Fp => x * y) Fp.one a 384 e

/-- The field inverse, and 0 for 0 (R15, R97). DEDUCED (log 14), safe: p is prime (R6), so a^(p−2) is the one inverse. -/
def Fp.inv (a : Fp) : Fp := Fp.pow a (Config.p - 2)

/-- 2^(−1) mod p, the `h/2` of the Miller loop (R157). -/
def Fp.half (a : Fp) : Fp := a * Fp.ofNat ((Config.p + 1) / 2)

/-! ### The multiplier (R77, R78) and the adder (R80), on words -/

/-- `MontMul(x, y) = x·y·R^(−1) mod p` (R77). -/
def montMul (x y : Nat) : Nat := x * y * Config.radixInv % Config.p

/-- `AddMod` (R80). -/
def addMod (x y : Nat) : Nat := if x + y ≥ Config.p then x + y - Config.p else x + y

/-- `SubMod` (R80). -/
def subMod (x y : Nat) : Nat := if x < y then x + Config.p - y else x - y

/-- One 64-bit limb's radix (R5). -/
def limbRadix : Nat := 2 ^ 64

/-- The limbs of a number, least significant first (R21). -/
def limbsOf : Nat → Nat → List Nat
  | 0, _ => []
  | n + 1, v => v % limbRadix :: limbsOf n (v / limbRadix)

/-- The number of a list of limbs. -/
def ofLimbs : List Nat → Nat
  | [] => 0
  | l :: ls => l + limbRadix * ofLimbs ls

/-- `(c, t[j]) <- t[j] + x[j]·y + c` along two limb lists (R78): the new limbs and the carry out. -/
def mulAddRow (y : Nat) : List Nat → List Nat → Nat → List Nat × Nat
  | x :: xs, t :: ts, c =>
    let v := t + x * y + c
    let (row, carry) := mulAddRow y xs ts (v / limbRadix)
    (v % limbRadix :: row, carry)
  | _, _, c => ([], c)

/-- One pass `i` of CIOS (R78) over t[5:0] and t[6]: multiply by the limb `bi`, then reduce by one limb. -/
def ciosPass (x : List Nat) (t : List Nat × Nat) (bi : Nat) : List Nat × Nat :=
  let (row, c) := mulAddRow bi x t.1 0
  let t6 := (t.2 + c) % limbRadix
  let t7 := (t.2 + c) / limbRadix
  let m := (row.headD 0 * Config.ninv) % limbRadix
  let (low, c) := mulAddRow m Config.pLimbs row 0
  (low.tail ++ [(t6 + c) % limbRadix], t7 + (t6 + c) / limbRadix)

/-- The reference datapath for MontMul: word-serial CIOS (R78). `Obligations.CiosIsMontMul` states that it is MontMul. -/
def cios (x y : Nat) : Nat :=
  let (low, t6) := (limbsOf 6 y).foldl (ciosPass (limbsOf 6 x)) (List.replicate 6 0, 0)
  let res := ofLimbs (low ++ [t6])
  if res ≥ Config.p then res - Config.p else res

/-! ### The almost-inverse (R89) -/

/-- The registers of phase 1 (R89). -/
structure Kaliski where
  u : Nat
  v : Nat
  r : Nat
  s : Nat
  k : Nat
  deriving DecidableEq, Repr

/-- One turn of phase 1 (R89). -/
def kaliskiStep (q : Kaliski) : Kaliski :=
  if q.u % 2 = 0 then { q with u := q.u / 2, s := 2 * q.s, k := q.k + 1 }
  else if q.v % 2 = 0 then { q with v := q.v / 2, r := 2 * q.r, k := q.k + 1 }
  else if q.u > q.v then { q with u := (q.u - q.v) / 2, r := q.r + q.s, s := 2 * q.s, k := q.k + 1 }
  else { q with v := (q.v - q.u) / 2, s := q.s + q.r, r := 2 * q.r, k := q.k + 1 }

/-- `while v ≠ 0 and k < 2·nb` (R89): k starts at 0, so the fuel 2·nb is the bound on k. -/
def kaliskiLoop : Nat → Kaliski → Kaliski
  | 0, q => q
  | fuel + 1, q => if q.v = 0 then q else kaliskiLoop fuel (kaliskiStep q)

/-- `repeat n times: y <- AddMod(y, y)` (R89, phase 2). -/
def doubleMod : Nat → Nat → Nat
  | 0, y => y
  | n + 1, y => doubleMod n (addMod y y)

/-- nb = bitlen(p) (R89). -/
def pBits : Nat := 381

/-- The word and the flag FP.INV gives for the word `xw` (R89), with the bound check the source asks for (D38). -/
def kaliskiInv (xw : Nat) : Nat × Bool :=
  if xw = 0 then (0, false)
  else
    let q := kaliskiLoop (2 * pBits) ⟨Config.p, xw, 0, 1, 0⟩
    if q.v ≠ 0 ∨ q.k < pBits ∨ q.k > 2 * pBits then (0, false)
    else
      let r := if q.r ≥ Config.p then q.r - Config.p else q.r
      (doubleMod (768 - q.k) (Config.p - r), true)

end Sys2Proof.Machine
end

