-- ==== Sys2Proof/Machine/Tower.lean ====
section
/-! DEFINITION. The tower-field unit (41_tower.md): Fp2 = Fp[u]/(u²+1), Fp6 = Fp2[v]/(v³−ξ), Fp12 = Fp6[w]/(w²−v),
ξ = 1 + u (R10). Every operation is the exact field operation on values (R15, R95, R96). -/

namespace Sys2Proof.Machine

/-- c0 + c1·u (R50). -/
structure Fp2 where
  c0 : Fp
  c1 : Fp
  deriving DecidableEq, Repr

/-- c0 + c1·v + c2·v² (R51). -/
structure Fp6 where
  c0 : Fp2
  c1 : Fp2
  c2 : Fp2
  deriving DecidableEq, Repr

/-- c0 + c1·w (R51). -/
structure Fp12 where
  c0 : Fp6
  c1 : Fp6
  deriving DecidableEq, Repr

/-! ### Fp2 -/

def Fp2.zero : Fp2 := ⟨Fp.zero, Fp.zero⟩
def Fp2.one : Fp2 := ⟨Fp.one, Fp.zero⟩
def Fp2.add (x y : Fp2) : Fp2 := ⟨x.c0 + y.c0, x.c1 + y.c1⟩
def Fp2.sub (x y : Fp2) : Fp2 := ⟨x.c0 - y.c0, x.c1 - y.c1⟩
def Fp2.dbl (x : Fp2) : Fp2 := x.add x
def Fp2.neg (x : Fp2) : Fp2 := ⟨x.c0.neg, x.c1.neg⟩

/-- (a0 + a1u)(b0 + b1u) = (a0b0 − a1b1) + (a0b1 + a1b0)u (R96). -/
def Fp2.mul (x y : Fp2) : Fp2 := ⟨x.c0 * y.c0 - x.c1 * y.c1, x.c0 * y.c1 + x.c1 * y.c0⟩

def Fp2.sqr (x : Fp2) : Fp2 := x.mul x

/-- The conjugate a0 − a1u (R106). -/
def Fp2.conj (x : Fp2) : Fp2 := ⟨x.c0, x.c1.neg⟩

/-- The multiplication of an Fp2 value by an Fp value (R159). -/
def Fp2.scale (x : Fp2) (k : Fp) : Fp2 := ⟨x.c0 * k, x.c1 * k⟩

/-- `ξ·(c0 + c1u) = (c0 − c1) + (c0 + c1)u` (R96). -/
def Fp2.mulXi (x : Fp2) : Fp2 := ⟨x.c0 - x.c1, x.c0 + x.c1⟩

/-- `(a0 + a1u)^(−1) = (a0 − a1u)·(a0² + a1²)^(−1)`, and 0 for 0 (R97, R105). -/
def Fp2.inv (x : Fp2) : Fp2 := x.conj.scale (x.c0 * x.c0 + x.c1 * x.c1).inv

/-- x^(p^k): x for even k, the conjugate for odd k (R107). -/
def Fp2.frob (x : Fp2) (k : Nat) : Fp2 := if k % 2 = 0 then x else x.conj

/-! ### Fp6 -/

def Fp6.zero : Fp6 := ⟨Fp2.zero, Fp2.zero, Fp2.zero⟩
def Fp6.one : Fp6 := ⟨Fp2.one, Fp2.zero, Fp2.zero⟩
def Fp6.add (x y : Fp6) : Fp6 := ⟨x.c0.add y.c0, x.c1.add y.c1, x.c2.add y.c2⟩
def Fp6.sub (x y : Fp6) : Fp6 := ⟨x.c0.sub y.c0, x.c1.sub y.c1, x.c2.sub y.c2⟩
def Fp6.dbl (x : Fp6) : Fp6 := x.add x
def Fp6.neg (x : Fp6) : Fp6 := ⟨x.c0.neg, x.c1.neg, x.c2.neg⟩

/-- The product of R96: v³ = ξ folds the degrees 3 and 4 back. -/
def Fp6.mul (x y : Fp6) : Fp6 :=
  ⟨(x.c0.mul y.c0).add ((x.c1.mul y.c2).add (x.c2.mul y.c1)).mulXi,
   ((x.c0.mul y.c1).add (x.c1.mul y.c0)).add (x.c2.mul y.c2).mulXi,
   ((x.c0.mul y.c2).add (x.c1.mul y.c1)).add (x.c2.mul y.c0)⟩

def Fp6.sqr (x : Fp6) : Fp6 := x.mul x

/-- `v·(c0 + c1v + c2v²) = ξc2 + c0v + c1v²` (R96). -/
def Fp6.mulV (x : Fp6) : Fp6 := ⟨x.c2.mulXi, x.c0, x.c1⟩

/-- Each Fp2 coefficient times an Fp2 value (R128). -/
def Fp6.scale (x : Fp6) (k : Fp2) : Fp6 := ⟨x.c0.mul k, x.c1.mul k, x.c2.mul k⟩

/-- The inverse through the norm to Fp2, and 0 for 0 (R97, R115). -/
def Fp6.inv (x : Fp6) : Fp6 :=
  let t0 := x.c0.sqr.sub (x.c1.mul x.c2).mulXi
  let t1 := x.c2.sqr.mulXi.sub (x.c0.mul x.c1)
  let t2 := x.c1.sqr.sub (x.c0.mul x.c2)
  let n := (x.c0.mul t0).add ((x.c2.mul t1).add (x.c1.mul t2)).mulXi
  (Fp6.mk t0 t1 t2).scale n.inv

/-- Z1 of the Frobenius tables (R98). -/
def frobZ1 : Fp :=
  Fp.ofNat 0x1a0111ea397fe699ec02408663d4de85aa0d857d89759ad4897d29650fb85f9b409427eb4f49fffd8bfd00000000aaac

/-- W1 of the Frobenius tables (R98). -/
def frobW1 : Fp :=
  Fp.ofNat 0x5f19672fdf76ce51ba69c6076a0f77eaddb3a93be6f89688de17d813620a00022e01fffffffefffe

/-- Z2 = Z1 + 1, W2 = W1 + 1, M1 = p − 1 (R98). -/
def frobZ2 : Fp := frobZ1 + Fp.one
def frobW2 : Fp := frobW1 + Fp.one
def frobM1 : Fp := Fp.one.neg

/-- γ1[k] = ξ^((p^k−1)/3), for k mod 6 (R98). -/
def frobGamma1 (k : Nat) : Fp2 :=
  match k % 6 with
  | 0 => Fp2.one
  | 1 => ⟨Fp.zero, frobZ1⟩
  | 2 => ⟨frobW1, Fp.zero⟩
  | 3 => ⟨Fp.zero, Fp.one⟩
  | 4 => ⟨frobZ1, Fp.zero⟩
  | _ => ⟨Fp.zero, frobW1⟩

/-- γ2[k] = ξ^(2(p^k−1)/3), for k mod 6 (R98). -/
def frobGamma2 (k : Nat) : Fp2 :=
  match k % 6 with
  | 0 => Fp2.one
  | 1 => ⟨frobZ2, Fp.zero⟩
  | 2 => ⟨frobZ1, Fp.zero⟩
  | 3 => ⟨frobM1, Fp.zero⟩
  | 4 => ⟨frobW1, Fp.zero⟩
  | _ => ⟨frobW2, Fp.zero⟩

/-- Rows 1, 3 and 5 of the Fp12 table (R98). -/
def frobGammaW1 : Fp2 :=
  ⟨Fp.ofNat 0x1904d3bf02bb0667c231beb4202c0d1f0fd603fd3cbd5f4f7b2443d784bab9c4f67ea53d63e7813d8d0775ed92235fb8,
   Fp.ofNat 0xfc3e2b36c4e03288e9e902231f9fb854a14787b6c7b36fec0c8ec971f63c5f282d5ac14d6c7ec22cf78a126ddc4af3⟩
def frobGammaW3 : Fp2 :=
  ⟨Fp.ofNat 0x135203e60180a68ee2e9c448d77a2cd91c3dedd930b1cf60ef396489f61eb45e304466cf3e67fa0af1ee7b04121bdea2,
   Fp.ofNat 0x6af0e0437ff400b6831e36d6bd17ffe48395dabc2d3435e77f76e17009241c5ee67992f72ec05f4c81084fbede3cc09⟩
def frobGammaW5 : Fp2 :=
  ⟨Fp.ofNat 0x144e4211384586c16bd3ad4afa99cc9170df3560e77982d0db45f3536814f0bd5871c1908bd478cd1ee605167ff82995,
   Fp.ofNat 0x5b2cfd9013a5fd8df47fa6b48b1e045f39816240c0b8fee8beadf4d8e9c0566c63a3e6e257f87329b18fae980078116⟩

/-- The two coordinates exchanged: rows 7, 9 and 11 from rows 1, 3 and 5 (R98). -/
def Fp2.swap (x : Fp2) : Fp2 := ⟨x.c1, x.c0⟩

/-- γw[k] = ξ^((p^k−1)/6), for k mod 12 (R98). -/
def frobGammaW (k : Nat) : Fp2 :=
  match k % 12 with
  | 0 => Fp2.one
  | 1 => frobGammaW1
  | 2 => ⟨frobW2, Fp.zero⟩
  | 3 => frobGammaW3
  | 4 => ⟨frobW1, Fp.zero⟩
  | 5 => frobGammaW5
  | 6 => ⟨frobM1, Fp.zero⟩
  | 7 => frobGammaW1.swap
  | 8 => ⟨frobZ1, Fp.zero⟩
  | 9 => frobGammaW3.swap
  | 10 => ⟨frobZ2, Fp.zero⟩
  | _ => frobGammaW5.swap

/-- x^(p^k) in Fp6 (R116). -/
def Fp6.frob (x : Fp6) (k : Nat) : Fp6 :=
  let j := k % 6
  ⟨x.c0.frob j, (x.c1.frob j).mul (frobGamma1 j), (x.c2.frob j).mul (frobGamma2 j)⟩

/-- x·(b0 + b1v), the source's `mul_by_01` (R117). -/
def Fp6.mulBy01 (x : Fp6) (b0 b1 : Fp2) : Fp6 := x.mul ⟨b0, b1, Fp2.zero⟩

/-- x·(b1v), the source's `mul_by_1` (R118). -/
def Fp6.mulBy1 (x : Fp6) (b1 : Fp2) : Fp6 := x.mul ⟨Fp2.zero, b1, Fp2.zero⟩

/-! ### Fp12 -/

def Fp12.zero : Fp12 := ⟨Fp6.zero, Fp6.zero⟩
def Fp12.one : Fp12 := ⟨Fp6.one, Fp6.zero⟩
def Fp12.add (x y : Fp12) : Fp12 := ⟨x.c0.add y.c0, x.c1.add y.c1⟩
def Fp12.sub (x y : Fp12) : Fp12 := ⟨x.c0.sub y.c0, x.c1.sub y.c1⟩
def Fp12.dbl (x : Fp12) : Fp12 := x.add x
def Fp12.neg (x : Fp12) : Fp12 := ⟨x.c0.neg, x.c1.neg⟩

/-- (a0 + a1w)(b0 + b1w) = (a0b0 + v·a1b1) + (a0b1 + a1b0)w (R96). -/
def Fp12.mul (x y : Fp12) : Fp12 :=
  ⟨(x.c0.mul y.c0).add (x.c1.mul y.c1).mulV, (x.c0.mul y.c1).add (x.c1.mul y.c0)⟩

def Fp12.sqr (x : Fp12) : Fp12 := x.mul x

/-- x0 − x1w (R127). -/
def Fp12.conj (x : Fp12) : Fp12 := ⟨x.c0, x.c1.neg⟩

/-- `(x0 + x1w)^(−1) = (x0 − x1w)·(x0² − v·x1²)^(−1)`, and 0 for 0 (R97, R126). -/
def Fp12.inv (x : Fp12) : Fp12 :=
  let n := (x.c0.sqr.sub x.c1.sqr.mulV).inv
  ⟨x.c0.mul n, (x.c1.mul n).neg⟩

/-- x^(p^k) in Fp12 (R128). -/
def Fp12.frob (x : Fp12) (k : Nat) : Fp12 :=
  let j := k % 12
  ⟨x.c0.frob j, (x.c1.frob j).scale (frobGammaW j)⟩

/-- x·((b0 + b1v) + (b4v)w), the source's `mul_by_014` (R129). -/
def Fp12.mulBy014 (x : Fp12) (b0 b1 b4 : Fp2) : Fp12 :=
  x.mul ⟨⟨b0, b1, Fp2.zero⟩, ⟨Fp2.zero, b4, Fp2.zero⟩⟩

/-- x·(b0 + (b3 + b4v)w), the source's `mul_by_034` (R130). -/
def Fp12.mulBy034 (x : Fp12) (b0 b3 b4 : Fp2) : Fp12 :=
  x.mul ⟨⟨b0, Fp2.zero, Fp2.zero⟩, ⟨b3, b4, Fp2.zero⟩⟩

/-- `S(a, b) = (a² + ξb², (a+b)² − a² − b²)`, the Fp4 square (R131). -/
def fp4Square (a b : Fp2) : Fp2 × Fp2 :=
  (a.sqr.add b.sqr.mulXi, ((a.add b).sqr.sub a.sqr).sub b.sqr)

/-- `3·t − 2·z`, computed as `2·(t − z) + t` (R131). -/
def threeTwoSub (t z : Fp2) : Fp2 := (t.sub z).dbl.add t

/-- `3·t + 2·z`, computed as `2·(t + z) + t` (R131). -/
def threeTwoAdd (t z : Fp2) : Fp2 := (t.add z).dbl.add t

/-- Cyclotomic squaring: the Granger–Scott formula, for every input (R131, D24). It is not the square off the
cyclotomic subgroup. -/
def Fp12.csqr (x : Fp12) : Fp12 :=
  let z0 := x.c0.c0
  let z4 := x.c0.c1
  let z3 := x.c0.c2
  let z2 := x.c1.c0
  let z1 := x.c1.c1
  let z5 := x.c1.c2
  let s01 := fp4Square z0 z1
  let s23 := fp4Square z2 z3
  let s45 := fp4Square z4 z5
  ⟨⟨threeTwoSub s01.1 z0, threeTwoSub s23.1 z4, threeTwoSub s45.1 z3⟩,
   ⟨threeTwoAdd s45.2.mulXi z2, threeTwoAdd s01.2 z1, threeTwoAdd s23.2 z5⟩⟩

end Sys2Proof.Machine
end

