-- ==== Sys2Proof/Machine/Point.lean ====
section
/-! DEFINITION. The group law of G1 and G2 in Jacobian coordinates (42_curve.md): the formulas of R136 to R138, written
once over a coordinate field, and the loops and tests built from them. -/

namespace Sys2Proof.Machine

/-- bitlen(k), the number of bits of k without leading zeros, with bitlen(0) = 0 (R13). -/
def bitlen (k : Nat) : Nat := if k = 0 then 0 else Nat.log2 k + 1

/-- A Jacobian triple over F (R18, R52). The point is the identity exactly when Z = 0. -/
structure Point (F : Type) where
  x : F
  y : F
  z : F
  deriving DecidableEq, Repr

/-- A coordinate field with its curve constant `bn` (R133): Fp with 4 for G1, Fp2 with 4(1+u) for G2 (R11). -/
structure Curve (F : Type) where
  zero : F
  one : F
  bn : F
  add : F → F → F
  sub : F → F → F
  mul : F → F → F
  inv : F → F

/-- The curve of G1 (R11, R133). -/
def curveG1 : Curve Fp where
  zero := Fp.zero
  one := Fp.one
  bn := Fp.ofNat 4
  add x y := x + y
  sub x y := x - y
  mul x y := x * y
  inv := Fp.inv

/-- The curve of G2 (R11, R133). -/
def curveG2 : Curve Fp2 where
  zero := Fp2.zero
  one := Fp2.one
  bn := ⟨Fp.ofNat 4, Fp.ofNat 4⟩
  add := Fp2.add
  sub := Fp2.sub
  mul := Fp2.mul
  inv := Fp2.inv

namespace Curve

variable {F : Type} (C : Curve F)

def sqr (a : F) : F := C.mul a a
def dbl (a : F) : F := C.add a a
def triple (a : F) : F := C.add (C.dbl a) a
def neg (a : F) : F := C.sub C.zero a

/-- The identity triple a command produces: (zero, one, zero) (R134). -/
def identity : Point F := ⟨C.zero, C.one, C.zero⟩

/-- (X, −Y, Z) (R142). -/
def negPoint (P : Point F) : Point F := ⟨P.x, C.neg P.y, P.z⟩

variable [DecidableEq F]

/-- Whether a point is the identity: Z = 0 (R18, R133). -/
def isIdentity (P : Point F) : Bool := decide (P.z = C.zero)

/-- Whether Z = one (R18, R153). -/
def isAffine (P : Point F) : Bool := decide (P.z = C.one)

/-- DBLF, dbl-2009-l (R136). DEDUCED (log 17), unsafe: where Z ≠ 0 and Y = 0, which no point of the curve has, the formula is
used as written and gives (X3, Y3, 0), and not the identity triple (0, one, 0) of D18. -/
def dblF (P : Point F) : Point F :=
  if P.z = C.zero then P
  else
    let a := C.sqr P.x
    let b := C.sqr P.y
    let c := C.sqr b
    let d := C.dbl (C.sub (C.sub (C.sqr (C.add P.x b)) a) c)
    let e := C.triple a
    let f := C.sqr e
    let x3 := C.sub f (C.dbl d)
    let y3 := C.sub (C.mul e (C.sub d x3)) (C.dbl (C.dbl (C.dbl c)))
    let z3 := C.mul (C.dbl P.y) P.z
    ⟨x3, y3, z3⟩

/-- ADDF, add-2007-bl with its fallbacks (R137). -/
def addF (P Q : Point F) : Point F :=
  if P.z = C.zero then Q
  else if Q.z = C.zero then P
  else
    let z1z1 := C.sqr P.z
    let z2z2 := C.sqr Q.z
    let u1 := C.mul P.x z2z2
    let u2 := C.mul Q.x z1z1
    let s1 := C.mul (C.mul P.y Q.z) z2z2
    let s2 := C.mul (C.mul Q.y P.z) z1z1
    if u1 = u2 then
      if s1 = s2 then C.dblF P else C.identity
    else
      let h := C.sub u2 u1
      let i := C.sqr (C.dbl h)
      let j := C.mul h i
      let rr := C.dbl (C.sub s2 s1)
      let v := C.mul u1 i
      let x3 := C.sub (C.sub (C.sqr rr) j) (C.dbl v)
      let y3 := C.sub (C.mul rr (C.sub v x3)) (C.mul (C.dbl s1) j)
      let z3 := C.mul (C.sub (C.sub (C.sqr (C.add P.z Q.z)) z1z1) z2z2) h
      ⟨x3, y3, z3⟩

/-- MADDF, madd-2007-bl, for a second point that is affine or the identity (R138). -/
def maddF (P Q : Point F) : Point F :=
  if Q.z = C.zero then P
  else if P.z = C.zero then Q
  else
    let z1z1 := C.sqr P.z
    let u2 := C.mul Q.x z1z1
    let s2 := C.mul (C.mul Q.y P.z) z1z1
    if P.x = u2 then
      if P.y = s2 then C.dblF P else C.identity
    else
      let h := C.sub u2 P.x
      let hh := C.sqr h
      let i := C.dbl (C.dbl hh)
      let j := C.mul h i
      let rr := C.dbl (C.sub s2 P.y)
      let v := C.mul P.x i
      let x3 := C.sub (C.sub (C.sqr rr) j) (C.dbl v)
      let y3 := C.sub (C.mul rr (C.sub v x3)) (C.mul (C.dbl P.y) j)
      let z3 := C.sub (C.sub (C.sqr (C.add P.z h)) z1z1) hh
      ⟨x3, y3, z3⟩

/-- Equality of group elements, by cross-multiplication (R135). -/
def equal (P Q : Point F) : Bool :=
  if P.z = C.zero ∨ Q.z = C.zero then decide (P.z = C.zero ∧ Q.z = C.zero)
  else
    let z1z1 := C.sqr P.z
    let z2z2 := C.sqr Q.z
    decide (C.mul P.x z2z2 = C.mul Q.x z1z1) &&
      decide (C.mul P.y (C.mul z2z2 Q.z) = C.mul Q.y (C.mul z1z1 P.z))

/-- Z = 0, or Y² = X³ + bn·Z⁶ (R148). -/
def onCurve (P : Point F) : Bool :=
  decide (P.z = C.zero) ||
    let z2 := C.sqr P.z
    decide (C.sqr P.y = C.add (C.mul (C.sqr P.x) P.x) (C.mul C.bn (C.mul (C.sqr z2) z2)))

/-- The double-and-add loop of R144 over the bits n−1 down to 0 of k. -/
def mulLoop (P : Point F) (k : Nat) : Nat → Point F → Point F
  | 0, q => q
  | i + 1, q =>
    let q := C.dblF q
    mulLoop P k i (if k.testBit i then C.addF q P else q)

/-- [k]P by R144: over the bit length of k, from the identity. -/
def mulF (P : Point F) (k : Nat) : Point F := C.mulLoop P k (bitlen k) C.identity

/-- [k]P by R145: exactly 255 iterations. -/
def mulCtF (P : Point F) (k : Nat) : Point F := C.mulLoop P k 255 C.identity

/-- The subgroup test: [r]P, by the loop of R144, has Z = 0 (R149). -/
def inSubgroup (P : Point F) : Bool := C.isIdentity (C.mulF P Config.r)

/-- The projection to Z = one; the identity is copied unchanged (R151, C6). -/
def affine (P : Point F) : Point F :=
  if P.z = C.zero then P
  else
    let zi := C.inv P.z
    let zi2 := C.sqr zi
    ⟨C.mul P.x zi2, C.mul P.y (C.mul zi2 zi), C.one⟩

end Curve

end Sys2Proof.Machine
end

