-- ==== Sys2Proof/Machine/ScalarUnit.lean ====
section
/-! DEFINITION. The windowed scalar recoder and the Pippenger accumulator (44_scalar_msm.md), on values. -/

namespace Sys2Proof.Machine

/-- The digit of an odd k (R165): k mod 2^w, less 2^w from 2^(w−1) on. -/
def wnafDigit (w k : Nat) : Int :=
  if k % 2 = 1 then
    let t := k % 2 ^ w
    if t ≥ 2 ^ (w - 1) then (t : Int) - 2 ^ w else t
  else 0

/-- The loop of R165: it stops at k = 0, and `fuel` bounds the digits. -/
def wnafLoop (w : Nat) : Nat → Nat → List Int
  | 0, _ => []
  | fuel + 1, k =>
    if k = 0 then []
    else
      let t := wnafDigit w k
      t :: wnafLoop w fuel (((k : Int) - t).toNat / 2)

/-- The digits of a scalar, from digit 0 (R165): 288 positions always suffice. -/
def wnafDigitsOf (w k : Nat) : List Int := wnafLoop w Config.wnafDigits k

/-- The 288 digit bytes of R54: two's complement, and 0 past the last digit (R165). -/
def digitBytes (digits : List Int) : List Byte :=
  (List.range Config.wnafDigits).map fun j => BitVec.ofInt 8 (digits.getD j 0)

/-- Σ sext(digit byte j)·2^j (R166). -/
def digitSum : List Byte → Int
  | [] => 0
  | b :: bs => b.toInt + 2 * digitSum bs

/-- The window width c(n) (R167). -/
def msmWindow (n : Nat) : Nat := if n < 32 then 3 else min 16 (bitlen (n - 1) - 2)

/-- W = ⌈255/c⌉ (R167). -/
def msmWindows (c : Nat) : Nat := (255 + c - 1) / c

namespace Curve

variable {F : Type} (C : Curve F) [DecidableEq F]

/-- `if t ≠ 0: bucket[t] <- ADDF(bucket[t], P_j)` (R168); bucket t is the list's entry t − 1. -/
def msmBucketAdd (c w : Nat) (buckets : List (Point F)) (Pk : Point F × Nat) : List (Point F) :=
  let t := (Pk.2 >>> (c * w)) % 2 ^ c
  if t = 0 then buckets else buckets.modify (t - 1) fun B => C.addF B Pk.1

/-- The buckets of window w, filled in list order (R168). -/
def msmBuckets (c w : Nat) (pairs : List (Point F × Nat)) : List (Point F) :=
  pairs.foldl (C.msmBucketAdd c w) (List.replicate (2 ^ c - 1) C.identity)

/-- One turn of the sweep: `run <- ADDF(run, bucket[t]); acc <- ADDF(acc, run)` (R168). -/
def msmSweepStep (ra : Point F × Point F) (B : Point F) : Point F × Point F :=
  let run := C.addF ra.1 B
  (run, C.addF ra.2 run)

/-- The window sum S_w: the single backward sweep over the buckets (R168). -/
def msmWindowSum (c w : Nat) (pairs : List (Point F × Nat)) : Point F :=
  ((C.msmBuckets c w pairs).reverse.foldl C.msmSweepStep (C.identity, C.identity)).2

/-- `repeat n times: R <- DBLF(R)` (R168). -/
def dblTimes : Nat → Point F → Point F
  | 0, R => R
  | n + 1, R => dblTimes n (C.dblF R)

/-- The windows w−1 down to 0, high window first (R168). -/
def msmCombine (c : Nat) (pairs : List (Point F × Nat)) : Nat → Point F → Point F
  | 0, R => R
  | w + 1, R => msmCombine c pairs w (C.addF (C.dblTimes c R) (C.msmWindowSum c w pairs))

/-- The Pippenger sum (R168). -/
def msm (pairs : List (Point F × Nat)) : Point F :=
  let c := msmWindow pairs.length
  C.msmCombine c pairs (msmWindows c) C.identity

end Curve

end Sys2Proof.Machine
end

