-- ==== Sys2Proof/Machine/Operands.lean ====
section
/-! DEFINITION. The operand types (R55) with their layouts (R49 to R54), the checks of a command (R175), and the shapes
commands are built from. A layout reads its slots in ascending order, and the first slot that is not legal ends the
command (R175 check 5). -/

namespace Sys2Proof.Machine

/-! ### Reading typed slots -/

/-- OUT_OF_FIELD at a slot of an operand, at element `idx` of a list (R173). -/
def outOfField (o : Operand) (idx slot : Nat) : Stop :=
  .raise ⟨.outOfField, o, BitVec.ofNat 16 slot, BitVec.ofNat 32 idx⟩

/-- `OM[slot]` (R14); a slot that has not been written faults (D37). -/
def readSlot (s : State) (slot : Nat) : Except Stop SlotWord :=
  match s.slot slot with
  | some w => .ok w
  | none => .error (.fault (.unwrittenSlot slot))

/-- A canonical word: a slot below p (R49, R175). -/
def readWord (s : State) (o : Operand) (idx slot : Nat) : Except Stop Fp :=
  match readSlot s slot with
  | .error e => .error e
  | .ok w => if h : w.toNat < Config.p then .ok ⟨w.toNat, h⟩ else .error (outOfField o idx slot)

/-- ReadFp: the value of a canonical word (R14). -/
def readFp (s : State) (o : Operand) (idx slot : Nat) : Except Stop Fp :=
  match readWord s o idx slot with
  | .error e => .error e
  | .ok w => .ok (valOf w)

/-- ReadScalar (R53): below 2^256, and below `bound`, which is r for MULCT and MSM (R175, D35). -/
def readScalar (bound : Nat) (s : State) (o : Operand) (idx slot : Nat) : Except Stop Nat :=
  match readSlot s slot with
  | .error e => .error e
  | .ok w => if w.toNat < 2 ^ 256 ∧ w.toNat < bound then .ok w.toNat else .error (outOfField o idx slot)

/-- `n` raw slots from a base on (R55, RAW), unchecked. -/
def readRaw (s : State) : Nat → Nat → Except Stop (List SlotWord)
  | 0, _ => .ok []
  | n + 1, slot =>
    match readSlot s slot with
    | .error e => .error e
    | .ok w =>
      match readRaw s n (slot + 1) with
      | .error e => .error e
      | .ok ws => .ok (w :: ws)

/-! ### Layouts -/

/-- An operand type (R55): its extent, how its slots are read and checked, and the slot words of a value. -/
structure Layout (α : Type) where
  extent : Nat
  read : State → Operand → Nat → Nat → Except Stop α
  words : α → List SlotWord

/-- Two operands one after the other. -/
def Layout.pair {α β : Type} (L : Layout α) (M : Layout β) : Layout (α × β) where
  extent := L.extent + M.extent
  read s o idx slot := do
    let x ← L.read s o idx slot
    let y ← M.read s o idx (slot + L.extent)
    pure (x, y)
  words xy := L.words xy.1 ++ M.words xy.2

/-- A layout seen through a change of type. -/
def Layout.iso {α β : Type} (L : Layout α) (make : α → β) (back : β → α) : Layout β where
  extent := L.extent
  read s o idx slot := do
    let x ← L.read s o idx slot
    pure (make x)
  words y := L.words (back y)

/-- The canonical word itself: FP as a word, and the plain integers of TOMONT and FROMMONT (R49). -/
def layoutWord : Layout Fp where
  extent := 1
  read := readWord
  words w := [w.slotWord]

/-- FP (R49): the Montgomery word of a value. -/
def layoutFp : Layout Fp where
  extent := 1
  read := readFp
  words a := [(mont a).slotWord]

/-- FP2 (R50): c0 at +0, c1 at +1. -/
def layoutFp2 : Layout Fp2 :=
  (layoutFp.pair layoutFp).iso (fun c => ⟨c.1, c.2⟩) fun x => (x.c0, x.c1)

/-- Two FP2 values, the sparse operand of MULBY01 (R117). -/
def layoutSparse2 : Layout (Fp2 × Fp2) := layoutFp2.pair layoutFp2

/-- Three FP2 values: FP6 (R51) and the sparse operands of MULBY014 and MULBY034 (R129, R130). -/
def layoutSparse3 : Layout (Fp2 × Fp2 × Fp2) := layoutFp2.pair (layoutFp2.pair layoutFp2)

/-- FP6 (R51). -/
def layoutFp6 : Layout Fp6 :=
  layoutSparse3.iso (fun c => ⟨c.1, c.2.1, c.2.2⟩) fun x => (x.c0, x.c1, x.c2)

/-- FP12 (R51). -/
def layoutFp12 : Layout Fp12 :=
  (layoutFp6.pair layoutFp6).iso (fun c => ⟨c.1, c.2⟩) fun x => (x.c0, x.c1)

/-- A point: X, Y, Z one after the other (R52). -/
def layoutPoint {F : Type} (L : Layout F) : Layout (Point F) :=
  (L.pair (L.pair L)).iso (fun c => ⟨c.1, c.2.1, c.2.2⟩) fun P => (P.x, P.y, P.z)

/-- G1 and G2 (R52). -/
def layoutG1 : Layout (Point Fp) := layoutPoint layoutFp
def layoutG2 : Layout (Point Fp2) := layoutPoint layoutFp2

/-- SC (R53), with the bound a command asks of it (D35). -/
def layoutScalar (bound : Nat) : Layout Nat where
  extent := 1
  read := readScalar bound
  words k := [BitVec.ofNat 384 k]

/-- Any scalar a slot can hold (R53). -/
def layoutSC : Layout Nat := layoutScalar (2 ^ 256)

/-- A scalar below the group order (R145, R168). -/
def layoutSCr : Layout Nat := layoutScalar Config.r

/-- The slots of a run of digit bytes, 48 to a slot (R54). -/
def packDigits : Nat → List Byte → List SlotWord
  | 0, _ => []
  | n + 1, bs => BitVec.ofNat 384 (ofBytes (bs.take slotBytes)) :: packDigits n (bs.drop slotBytes)

/-- WN (R54): 288 digit bytes in six slots, unchecked. -/
def layoutWN : Layout (List Byte) where
  extent := 6
  read s _ _ slot := do
    let ws ← readRaw s 6 slot
    pure (ws.flatMap fun w => bytesOf slotBytes w.toNat)
  words bs := packDigits 6 bs

/-- RAW(n) (R55). -/
def layoutRaw (n : Nat) : Layout (List SlotWord) where
  extent := n
  read s _ _ slot := readRaw s n slot
  words ws := ws

/-- Elements `idx` on of a list operand: n more of them, the next at `slot` (R66). -/
def readListFrom {α : Type} (L : Layout α) (s : State) (o : Operand) : Nat → Nat → Nat → Except Stop (List α)
  | 0, _, _ => .ok []
  | n + 1, idx, slot =>
    match L.read s o idx slot with
    | .error e => .error e
    | .ok x =>
      match readListFrom L s o n (idx + 1) (slot + L.extent) with
      | .error e => .error e
      | .ok xs => .ok (x :: xs)

/-- A list of n elements (R66). -/
def layoutList {α : Type} (n : Nat) (L : Layout α) : Layout (List α) where
  extent := n * L.extent
  read s o _ slot := readListFrom L s o n 0 slot
  words xs := xs.flatMap L.words

/-! ### The checks before the values (R175 checks 3 and 4) -/

/-- ADDRESS_RANGE: the first operand, in the order given, whose extent passes slot N_SLOTS − 1 (R68). -/
def checkExtents (s : State) : List (Operand × SlotAddr × Nat) → Except Stop Unit
  | [] => .ok ()
  | (o, base, extent) :: rest =>
    if base.toNat + extent > s.nSlots then .error (.raise ⟨.addressRange, o, base, 0⟩) else checkExtents s rest

/-- SHAPE: a list command's count above MAX_COUNT (R67, R173). -/
def checkShape (s : State) : Except Stop Unit :=
  if s.countLatch.toNat > s.maxCount then .error (.raise ⟨.shape, .none, 0, s.countLatch⟩) else .ok ()

/-! ### Shapes of commands -/

/-- A command with D and A. -/
def commandDA {α : Type} (opc : BitVec 8) (dExtent : Nat) (LA : Layout α) (d a : SlotAddr) (s : State)
    (body : α → Except Stop Effect) : Host.Outcome State Fault Refusal :=
  finish opc s do
    checkExtents s [(.d, d, dExtent), (.a, a, LA.extent)]
    let x ← LA.read s .a 0 a.toNat
    body x

/-- A command with D, A and B. -/
def commandDAB {α β : Type} (opc : BitVec 8) (dExtent : Nat) (LA : Layout α) (LB : Layout β) (d a b : SlotAddr)
    (s : State) (body : α → β → Except Stop Effect) : Host.Outcome State Fault Refusal :=
  finish opc s do
    checkExtents s [(.d, d, dExtent), (.a, a, LA.extent), (.b, b, LB.extent)]
    let x ← LA.read s .a 0 a.toNat
    let y ← LB.read s .b 0 b.toNat
    body x y

/-- A command with A alone. -/
def commandA {α : Type} (opc : BitVec 8) (LA : Layout α) (a : SlotAddr) (s : State)
    (body : α → Except Stop Effect) : Host.Outcome State Fault Refusal :=
  finish opc s do
    checkExtents s [(.a, a, LA.extent)]
    let x ← LA.read s .a 0 a.toNat
    body x

/-- A command with A and B. -/
def commandAB {α β : Type} (opc : BitVec 8) (LA : Layout α) (LB : Layout β) (a b : SlotAddr) (s : State)
    (body : α → β → Except Stop Effect) : Host.Outcome State Fault Refusal :=
  finish opc s do
    checkExtents s [(.a, a, LA.extent), (.b, b, LB.extent)]
    let x ← LA.read s .a 0 a.toNat
    let y ← LB.read s .b 0 b.toNat
    body x y

/-- The effect of writing `v` at D, with FLAG (R66, R30). -/
def writeD {α : Type} (L : Layout α) (d : SlotAddr) (v : α) (flag : Bool := false) : Except Stop Effect :=
  .ok { writes := place d.toNat (L.words v), flag := flag }

/-- The effect of a predicate: FLAG alone (R30). -/
def setFlag (flag : Bool) : Except Stop Effect := .ok { flag := flag }

/-- D ← f(A), FLAG 0. -/
def unary {α β : Type} (opc : BitVec 8) (LD : Layout β) (LA : Layout α) (f : α → β) (d a : SlotAddr) (s : State) :
    Host.Outcome State Fault Refusal :=
  commandDA opc LD.extent LA d a s fun x => writeD LD d (f x)

/-- D ← f(A), FLAG ← g(A). -/
def unaryFlag {α β : Type} (opc : BitVec 8) (LD : Layout β) (LA : Layout α) (f : α → β) (g : α → Bool)
    (d a : SlotAddr) (s : State) : Host.Outcome State Fault Refusal :=
  commandDA opc LD.extent LA d a s fun x => writeD LD d (f x) (g x)

/-- D ← f(A, B), FLAG 0. -/
def binary {α β γ : Type} (opc : BitVec 8) (LD : Layout γ) (LA : Layout α) (LB : Layout β) (f : α → β → γ)
    (d a b : SlotAddr) (s : State) : Host.Outcome State Fault Refusal :=
  commandDAB opc LD.extent LA LB d a b s fun x y => writeD LD d (f x y)

/-- FLAG ← g(A). -/
def test1 {α : Type} (opc : BitVec 8) (LA : Layout α) (g : α → Bool) (a : SlotAddr) (s : State) :
    Host.Outcome State Fault Refusal :=
  commandA opc LA a s fun x => setFlag (g x)

/-- FLAG ← g(A, B). -/
def test2 {α β : Type} (opc : BitVec 8) (LA : Layout α) (LB : Layout β) (g : α → β → Bool) (a b : SlotAddr)
    (s : State) : Host.Outcome State Fault Refusal :=
  commandAB opc LA LB a b s fun x y => setFlag (g x y)

/-- A list command (R67): the count is checked before anything else. -/
def listCommand (opc : BitVec 8) (s : State) (run : Host.Outcome State Fault Refusal) :
    Host.Outcome State Fault Refusal :=
  match checkShape s with
  | .ok _ => run
  | .error e => finish opc s (.error e)

end Sys2Proof.Machine
end

