-- ==== Sys2Proof/Machine/Control.lean ====
section
/-! DEFINITION. The constants ROM (R38) and the control commands NOP, COPY and LDC (45_control.md). -/

namespace Sys2Proof.Machine

/-- The generators as points, from the plain coordinates of R12. -/
def g1Generator : Point Fp := ⟨Fp.ofNat Config.g1GenX, Fp.ofNat Config.g1GenY, Fp.one⟩
def g2Generator : Point Fp2 :=
  ⟨⟨Fp.ofNat Config.g2GenX0, Fp.ofNat Config.g2GenX1⟩, ⟨Fp.ofNat Config.g2GenY0, Fp.ofNat Config.g2GenY1⟩, Fp2.one⟩

/-- Entry `i` of the constants ROM, in slot order; nothing from 10 on (R38). -/
def romEntry (i : Nat) : Option (List SlotWord) :=
  match i with
  | 0 => some (layoutFp.words Fp.zero)
  | 1 => some (layoutFp.words Fp.one)
  | 2 => some (layoutG1.words g1Generator)
  | 3 => some (layoutG2.words g2Generator)
  | 4 => some (layoutG1.words curveG1.identity)
  | 5 => some (layoutG2.words curveG2.identity)
  | 6 => some (layoutFp12.words Fp12.one)
  | 7 => some (layoutFp.words curveG1.bn)
  | 8 => some (layoutFp2.words curveG2.bn)
  | 9 => some (layoutSC.words Config.r)
  | _ => none

/-- NOP (R169): it does nothing and completes. -/
def execNop (s : State) : Host.Outcome State Fault Refusal := finish 0x00 s (.ok {})

/-- COPY (R170): n + 1 raw slots, all read before any is written; no slot is checked. -/
def execCopy (d a : SlotAddr) (n : BitVec 8) (s : State) : Host.Outcome State Fault Refusal :=
  let L := layoutRaw (n.toNat + 1)
  unary 0x01 L L (fun ws => ws) d a s

/-- LDC (R171): entry i of the ROM; a reserved index is RESERVED_FIELD, before the extent is checked. -/
def execLdc (d : SlotAddr) (i : BitVec 8) (s : State) : Host.Outcome State Fault Refusal :=
  finish 0x02 s <|
    match romEntry i.toNat with
    | none => .error (.raise ⟨.reservedField, .none, 0, 0⟩)
    | some ws => do
      checkExtents s [(.d, d, ws.length)]
      .ok { writes := place d.toNat ws }

end Sys2Proof.Machine
end

