-- ==== Sys2Proof/Machine/Fp12Commands.lean ====
section
/-! DEFINITION. The FP12 commands (41_tower.md). Operands are values; the written words are the Montgomery words
of the result's coordinates (R95). FLAG is 0 but for INV (R97) and EQ. -/

namespace Sys2Proof.Machine

/-- FP12.ADD (R120). -/
def execFp12Add (d a b : SlotAddr) (s : State) : Host.Outcome State Fault Refusal :=
  binary 0x40 layoutFp12 layoutFp12 layoutFp12 Fp12.add d a b s

/-- FP12.SUB (R121). -/
def execFp12Sub (d a b : SlotAddr) (s : State) : Host.Outcome State Fault Refusal :=
  binary 0x41 layoutFp12 layoutFp12 layoutFp12 Fp12.sub d a b s

/-- FP12.DBL (R122). -/
def execFp12Dbl (d a : SlotAddr) (s : State) : Host.Outcome State Fault Refusal :=
  unary 0x42 layoutFp12 layoutFp12 Fp12.dbl d a s

/-- FP12.NEG (R123). -/
def execFp12Neg (d a : SlotAddr) (s : State) : Host.Outcome State Fault Refusal :=
  unary 0x43 layoutFp12 layoutFp12 Fp12.neg d a s

/-- FP12.MUL (R124). -/
def execFp12Mul (d a b : SlotAddr) (s : State) : Host.Outcome State Fault Refusal :=
  binary 0x44 layoutFp12 layoutFp12 layoutFp12 Fp12.mul d a b s

/-- FP12.SQR (R125). -/
def execFp12Sqr (d a : SlotAddr) (s : State) : Host.Outcome State Fault Refusal :=
  unary 0x45 layoutFp12 layoutFp12 Fp12.sqr d a s

/-- FP12.INV (R126): 0 for 0; FLAG = (x ≠ 0). -/
def execFp12Inv (d a : SlotAddr) (s : State) : Host.Outcome State Fault Refusal :=
  unaryFlag 0x46 layoutFp12 layoutFp12 Fp12.inv (fun x => decide (x ≠ Fp12.zero)) d a s

/-- FP12.CONJ (R127). -/
def execFp12Conj (d a : SlotAddr) (s : State) : Host.Outcome State Fault Refusal :=
  unary 0x47 layoutFp12 layoutFp12 Fp12.conj d a s

/-- FP12.FROB (R128): x^(p^k), for every k. -/
def execFp12Frob (d a : SlotAddr) (k : BitVec 8) (s : State) : Host.Outcome State Fault Refusal :=
  unary 0x48 layoutFp12 layoutFp12 (fun x => x.frob k.toNat) d a s

/-- FP12.MULBY014 (R129): B is [b0, b1, b4]. -/
def execFp12Mulby014 (d a b : SlotAddr) (s : State) : Host.Outcome State Fault Refusal :=
  binary 0x49 layoutFp12 layoutFp12 layoutSparse3 (fun x y => x.mulBy014 y.1 y.2.1 y.2.2) d a b s

/-- FP12.MULBY034 (R130): B is [b0, b3, b4]. -/
def execFp12Mulby034 (d a b : SlotAddr) (s : State) : Host.Outcome State Fault Refusal :=
  binary 0x4A layoutFp12 layoutFp12 layoutSparse3 (fun x y => x.mulBy034 y.1 y.2.1 y.2.2) d a b s

/-- FP12.CSQR (R131). -/
def execFp12Csqr (d a : SlotAddr) (s : State) : Host.Outcome State Fault Refusal :=
  unary 0x4B layoutFp12 layoutFp12 Fp12.csqr d a s

/-- FP12.EQ (R132). -/
def execFp12Eq (a b : SlotAddr) (s : State) : Host.Outcome State Fault Refusal :=
  test2 0x4C layoutFp12 layoutFp12 (fun x y => decide (x = y)) a b s

end Sys2Proof.Machine
end

