-- ==== Sys2Proof/Machine/Fp2Commands.lean ====
section
/-! DEFINITION. The FP2 commands (41_tower.md). Operands are values; the written words are the Montgomery words
of the result's coordinates (R95). FLAG is 0 but for INV (R97) and EQ. -/

namespace Sys2Proof.Machine

/-- FP2.ADD (R99). -/
def execFp2Add (d a b : SlotAddr) (s : State) : Host.Outcome State Fault Refusal :=
  binary 0x20 layoutFp2 layoutFp2 layoutFp2 Fp2.add d a b s

/-- FP2.SUB (R100). -/
def execFp2Sub (d a b : SlotAddr) (s : State) : Host.Outcome State Fault Refusal :=
  binary 0x21 layoutFp2 layoutFp2 layoutFp2 Fp2.sub d a b s

/-- FP2.DBL (R101). -/
def execFp2Dbl (d a : SlotAddr) (s : State) : Host.Outcome State Fault Refusal :=
  unary 0x22 layoutFp2 layoutFp2 Fp2.dbl d a s

/-- FP2.NEG (R102). -/
def execFp2Neg (d a : SlotAddr) (s : State) : Host.Outcome State Fault Refusal :=
  unary 0x23 layoutFp2 layoutFp2 Fp2.neg d a s

/-- FP2.MUL (R103). -/
def execFp2Mul (d a b : SlotAddr) (s : State) : Host.Outcome State Fault Refusal :=
  binary 0x24 layoutFp2 layoutFp2 layoutFp2 Fp2.mul d a b s

/-- FP2.SQR (R104). -/
def execFp2Sqr (d a : SlotAddr) (s : State) : Host.Outcome State Fault Refusal :=
  unary 0x25 layoutFp2 layoutFp2 Fp2.sqr d a s

/-- FP2.INV (R105): 0 for 0; FLAG = (x ≠ 0). -/
def execFp2Inv (d a : SlotAddr) (s : State) : Host.Outcome State Fault Refusal :=
  unaryFlag 0x26 layoutFp2 layoutFp2 Fp2.inv (fun x => decide (x ≠ Fp2.zero)) d a s

/-- FP2.CONJ (R106). -/
def execFp2Conj (d a : SlotAddr) (s : State) : Host.Outcome State Fault Refusal :=
  unary 0x27 layoutFp2 layoutFp2 Fp2.conj d a s

/-- FP2.FROB (R107): x^(p^k), for every k. -/
def execFp2Frob (d a : SlotAddr) (k : BitVec 8) (s : State) : Host.Outcome State Fault Refusal :=
  unary 0x28 layoutFp2 layoutFp2 (fun x => x.frob k.toNat) d a s

/-- FP2.EQ (R108). -/
def execFp2Eq (a b : SlotAddr) (s : State) : Host.Outcome State Fault Refusal :=
  test2 0x29 layoutFp2 layoutFp2 (fun x y => decide (x = y)) a b s

end Sys2Proof.Machine
end

