-- ==== Sys2Proof/Machine/Fp6Commands.lean ====
section
/-! DEFINITION. The FP6 commands (41_tower.md). Operands are values; the written words are the Montgomery words
of the result's coordinates (R95). FLAG is 0 but for INV (R97) and EQ. -/

namespace Sys2Proof.Machine

/-- FP6.ADD (R109). -/
def execFp6Add (d a b : SlotAddr) (s : State) : Host.Outcome State Fault Refusal :=
  binary 0x30 layoutFp6 layoutFp6 layoutFp6 Fp6.add d a b s

/-- FP6.SUB (R110). -/
def execFp6Sub (d a b : SlotAddr) (s : State) : Host.Outcome State Fault Refusal :=
  binary 0x31 layoutFp6 layoutFp6 layoutFp6 Fp6.sub d a b s

/-- FP6.DBL (R111). -/
def execFp6Dbl (d a : SlotAddr) (s : State) : Host.Outcome State Fault Refusal :=
  unary 0x32 layoutFp6 layoutFp6 Fp6.dbl d a s

/-- FP6.NEG (R112). -/
def execFp6Neg (d a : SlotAddr) (s : State) : Host.Outcome State Fault Refusal :=
  unary 0x33 layoutFp6 layoutFp6 Fp6.neg d a s

/-- FP6.MUL (R113). -/
def execFp6Mul (d a b : SlotAddr) (s : State) : Host.Outcome State Fault Refusal :=
  binary 0x34 layoutFp6 layoutFp6 layoutFp6 Fp6.mul d a b s

/-- FP6.SQR (R114). -/
def execFp6Sqr (d a : SlotAddr) (s : State) : Host.Outcome State Fault Refusal :=
  unary 0x35 layoutFp6 layoutFp6 Fp6.sqr d a s

/-- FP6.INV (R115): 0 for 0; FLAG = (x ≠ 0). -/
def execFp6Inv (d a : SlotAddr) (s : State) : Host.Outcome State Fault Refusal :=
  unaryFlag 0x36 layoutFp6 layoutFp6 Fp6.inv (fun x => decide (x ≠ Fp6.zero)) d a s

/-- FP6.FROB (R116): x^(p^k), for every k. -/
def execFp6Frob (d a : SlotAddr) (k : BitVec 8) (s : State) : Host.Outcome State Fault Refusal :=
  unary 0x37 layoutFp6 layoutFp6 (fun x => x.frob k.toNat) d a s

/-- FP6.MULBY01 (R117): B is [b0, b1]. -/
def execFp6Mulby01 (d a b : SlotAddr) (s : State) : Host.Outcome State Fault Refusal :=
  binary 0x38 layoutFp6 layoutFp6 layoutSparse2 (fun x y => x.mulBy01 y.1 y.2) d a b s

/-- FP6.MULBY1 (R118): B is b1. -/
def execFp6Mulby1 (d a b : SlotAddr) (s : State) : Host.Outcome State Fault Refusal :=
  binary 0x39 layoutFp6 layoutFp6 layoutFp2 Fp6.mulBy1 d a b s

/-- FP6.EQ (R119). -/
def execFp6Eq (a b : SlotAddr) (s : State) : Host.Outcome State Fault Refusal :=
  test2 0x3A layoutFp6 layoutFp6 (fun x y => decide (x = y)) a b s

end Sys2Proof.Machine
end

