-- ==== Sys2Proof/Machine/FpCommands.lean ====
section
/-! DEFINITION. The thirteen Fp commands (40_fp.md). They work on canonical words: each source slot is below p. -/

namespace Sys2Proof.Machine

/-- A result that a rule gives as the number in a slot (R81 to R89). -/
def layoutResult : Layout Nat where
  extent := 1
  read s _ _ slot := do
    let w ← readSlot s slot
    pure w.toNat
  words n := [BitVec.ofNat 384 n]

/-- FP.ADD (R81). -/
def execFpAdd (d a b : SlotAddr) (s : State) : Host.Outcome State Fault Refusal :=
  binary 0x10 layoutResult layoutWord layoutWord (fun x y => addMod x.val y.val) d a b s

/-- FP.SUB (R82). -/
def execFpSub (d a b : SlotAddr) (s : State) : Host.Outcome State Fault Refusal :=
  binary 0x11 layoutResult layoutWord layoutWord (fun x y => subMod x.val y.val) d a b s

/-- FP.DBL (R83). -/
def execFpDbl (d a : SlotAddr) (s : State) : Host.Outcome State Fault Refusal :=
  unary 0x12 layoutResult layoutWord (fun x => addMod x.val x.val) d a s

/-- FP.NEG (R84): 0 for 0, never p. -/
def execFpNeg (d a : SlotAddr) (s : State) : Host.Outcome State Fault Refusal :=
  unary 0x13 layoutResult layoutWord (fun x => if x.val = 0 then 0 else Config.p - x.val) d a s

/-- FP.MUL (R85). -/
def execFpMul (d a b : SlotAddr) (s : State) : Host.Outcome State Fault Refusal :=
  binary 0x14 layoutResult layoutWord layoutWord (fun x y => montMul x.val y.val) d a b s

/-- FP.SQR (R86). -/
def execFpSqr (d a : SlotAddr) (s : State) : Host.Outcome State Fault Refusal :=
  unary 0x15 layoutResult layoutWord (fun x => montMul x.val x.val) d a s

/-- FP.TOMONT (R87): the plain input is checked below p like a Montgomery word. -/
def execFpTomont (d a : SlotAddr) (s : State) : Host.Outcome State Fault Refusal :=
  unary 0x16 layoutResult layoutWord (fun x => montMul x.val Config.rsq) d a s

/-- FP.FROMMONT (R88). -/
def execFpFrommont (d a : SlotAddr) (s : State) : Host.Outcome State Fault Refusal :=
  unary 0x17 layoutResult layoutWord (fun x => montMul x.val 1) d a s

/-- FP.INV (R89): the almost-inverse on words, 0 for 0; FLAG is 1 for a non-zero input. -/
def execFpInv (d a : SlotAddr) (s : State) : Host.Outcome State Fault Refusal :=
  unaryFlag 0x18 layoutResult layoutWord (fun x => (kaliskiInv x.val).1) (fun x => (kaliskiInv x.val).2) d a s

/-- FP.SQRT (R90): x^((p+1)/4), verified by squaring; NONSQUARE otherwise, and nothing is written. -/
def execFpSqrt (d a : SlotAddr) (s : State) : Host.Outcome State Fault Refusal :=
  commandDA 0x19 1 layoutFp d a s fun x =>
    let c := x.pow ((Config.p + 1) / 4)
    if c * c = x then writeD layoutFp d c true
    else .error (.raise ⟨.nonsquare, .a, a, 0⟩)

/-- FP.ISQNR (R91): x^((p−1)/2) ≠ 1, so 1 for x = 0 (D34). -/
def execFpIsqnr (a : SlotAddr) (s : State) : Host.Outcome State Fault Refusal :=
  test1 0x1A layoutFp (fun x => decide (x.pow ((Config.p - 1) / 2) ≠ Fp.one)) a s

/-- FP.EQ (R92). -/
def execFpEq (a b : SlotAddr) (s : State) : Host.Outcome State Fault Refusal :=
  test2 0x1B layoutFp layoutFp (fun x y => decide (x = y)) a b s

/-- FP.ISZERO (R93): the test on the word. -/
def execFpIszero (a : SlotAddr) (s : State) : Host.Outcome State Fault Refusal :=
  test1 0x1C layoutWord (fun x => decide (x.val = 0)) a s

end Sys2Proof.Machine
end

