-- ==== Sys2Proof/Machine/GroupCommands.lean ====
section
/-! DEFINITION. The commands of the curve unit and of the MSM (42_curve.md, R168), written once over a group: its
coordinate field, its layout, and how many slots a coordinate has. -/

namespace Sys2Proof.Machine

/-- A group Gn (R133): its curve, the layout of its points, and the extent of one coordinate. -/
structure Group (F : Type) where
  curve : Curve F
  layout : Layout (Point F)
  coordinate : Nat

/-- G1 and G2 (R52, R133). -/
def groupG1 : Group Fp := ⟨curveG1, layoutG1, 1⟩
def groupG2 : Group Fp2 := ⟨curveG2, layoutG2, 2⟩

section

variable {F : Type} (G : Group F) [DecidableEq F]

/-- Gn.ADD (R139). -/
def groupAdd (opc : BitVec 8) (d a b : SlotAddr) (s : State) : Host.Outcome State Fault Refusal :=
  binary opc G.layout G.layout G.layout G.curve.addF d a b s

/-- Gn.ADDM (R140): NOT_AFFINE, at the first Z slot of B, where B's Z is neither zero nor one. -/
def groupAddm (opc : BitVec 8) (d a b : SlotAddr) (s : State) : Host.Outcome State Fault Refusal :=
  commandDAB opc G.layout.extent G.layout G.layout d a b s fun P Q =>
    if Q.z = G.curve.zero ∨ Q.z = G.curve.one then writeD G.layout d (G.curve.maddF P Q)
    else .error (.raise ⟨.notAffine, .b, BitVec.ofNat 16 (b.toNat + 2 * G.coordinate), 0⟩)

/-- Gn.DBL (R141). -/
def groupDbl (opc : BitVec 8) (d a : SlotAddr) (s : State) : Host.Outcome State Fault Refusal :=
  unary opc G.layout G.layout G.curve.dblF d a s

/-- Gn.NEG (R142). -/
def groupNeg (opc : BitVec 8) (d a : SlotAddr) (s : State) : Host.Outcome State Fault Refusal :=
  unary opc G.layout G.layout G.curve.negPoint d a s

/-- Gn.SUB (R143): negate and add. -/
def groupSub (opc : BitVec 8) (d a b : SlotAddr) (s : State) : Host.Outcome State Fault Refusal :=
  binary opc G.layout G.layout G.layout (fun P Q => G.curve.addF P (G.curve.negPoint Q)) d a b s

/-- Gn.MUL (R144): any k < 2^256. -/
def groupMul (opc : BitVec 8) (d a b : SlotAddr) (s : State) : Host.Outcome State Fault Refusal :=
  binary opc G.layout G.layout layoutSC G.curve.mulF d a b s

/-- Gn.MULCT (R145): k < r. -/
def groupMulct (opc : BitVec 8) (d a b : SlotAddr) (s : State) : Host.Outcome State Fault Refusal :=
  binary opc G.layout G.layout layoutSCr G.curve.mulCtF d a b s

/-- Gn.EQ (R146). -/
def groupEq (opc : BitVec 8) (a b : SlotAddr) (s : State) : Host.Outcome State Fault Refusal :=
  test2 opc G.layout G.layout G.curve.equal a b s

/-- Gn.ISZERO (R147). -/
def groupIszero (opc : BitVec 8) (a : SlotAddr) (s : State) : Host.Outcome State Fault Refusal :=
  test1 opc G.layout G.curve.isIdentity a s

/-- Gn.ONCURVE (R148). -/
def groupOncurve (opc : BitVec 8) (a : SlotAddr) (s : State) : Host.Outcome State Fault Refusal :=
  test1 opc G.layout G.curve.onCurve a s

/-- Gn.INSUB (R149). -/
def groupInsub (opc : BitVec 8) (a : SlotAddr) (s : State) : Host.Outcome State Fault Refusal :=
  test1 opc G.layout G.curve.inSubgroup a s

/-- Gn.CHECK (R150): OFF_CURVE before WRONG_SUBGROUP. -/
def groupCheck (opc : BitVec 8) (a : SlotAddr) (s : State) : Host.Outcome State Fault Refusal :=
  commandA opc G.layout a s fun P =>
    if !G.curve.onCurve P then .error (.raise ⟨.offCurve, .a, a, 0⟩)
    else if !G.curve.inSubgroup P then .error (.raise ⟨.wrongSubgroup, .a, a, 0⟩)
    else setFlag true

/-- Gn.AFFINE (R151). -/
def groupAffine (opc : BitVec 8) (d a : SlotAddr) (s : State) : Host.Outcome State Fault Refusal :=
  unary opc G.layout G.layout G.curve.affine d a s

/-- Gn.AFFB (R152): AFFINE of each of n points. -/
def groupAffb (opc : BitVec 8) (d a : SlotAddr) (s : State) : Host.Outcome State Fault Refusal :=
  let L := layoutList s.countLatch.toNat G.layout
  listCommand opc s (unary opc L L (List.map G.curve.affine) d a s)

/-- Gn.MSM (R168): n points at A, n scalars below r at B; all the points are checked first. -/
def groupMsm (opc : BitVec 8) (d a b : SlotAddr) (s : State) : Host.Outcome State Fault Refusal :=
  let n := s.countLatch.toNat
  listCommand opc s
    (binary opc G.layout (layoutList n G.layout) (layoutList n layoutSCr)
      (fun points scalars => G.curve.msm (points.zip scalars)) d a b s)

/-- Gn.ISAFFINE (R153). -/
def groupIsaffine (opc : BitVec 8) (a : SlotAddr) (s : State) : Host.Outcome State Fault Refusal :=
  test1 opc G.layout G.curve.isAffine a s

end

end Sys2Proof.Machine
end

