-- ==== Sys2Proof/Machine/G1Commands.lean ====
section
/-! DEFINITION. The G1 commands (42_curve.md, R168): each is the group command of GroupCommands at G1. -/

namespace Sys2Proof.Machine

/-- G1.ADD (R139). -/
def execG1Add (d a b : SlotAddr) (s : State) : Host.Outcome State Fault Refusal :=
  groupAdd groupG1 0x50 d a b s

/-- G1.ADDM (R140). -/
def execG1Addm (d a b : SlotAddr) (s : State) : Host.Outcome State Fault Refusal :=
  groupAddm groupG1 0x51 d a b s

/-- G1.DBL (R141). -/
def execG1Dbl (d a : SlotAddr) (s : State) : Host.Outcome State Fault Refusal :=
  groupDbl groupG1 0x52 d a s

/-- G1.NEG (R142). -/
def execG1Neg (d a : SlotAddr) (s : State) : Host.Outcome State Fault Refusal :=
  groupNeg groupG1 0x53 d a s

/-- G1.SUB (R143). -/
def execG1Sub (d a b : SlotAddr) (s : State) : Host.Outcome State Fault Refusal :=
  groupSub groupG1 0x54 d a b s

/-- G1.MUL (R144). -/
def execG1Mul (d a b : SlotAddr) (s : State) : Host.Outcome State Fault Refusal :=
  groupMul groupG1 0x55 d a b s

/-- G1.EQ (R146). -/
def execG1Eq (a b : SlotAddr) (s : State) : Host.Outcome State Fault Refusal :=
  groupEq groupG1 0x56 a b s

/-- G1.ISZERO (R147). -/
def execG1Iszero (a : SlotAddr) (s : State) : Host.Outcome State Fault Refusal :=
  groupIszero groupG1 0x57 a s

/-- G1.ONCURVE (R148). -/
def execG1Oncurve (a : SlotAddr) (s : State) : Host.Outcome State Fault Refusal :=
  groupOncurve groupG1 0x58 a s

/-- G1.INSUB (R149). -/
def execG1Insub (a : SlotAddr) (s : State) : Host.Outcome State Fault Refusal :=
  groupInsub groupG1 0x59 a s

/-- G1.CHECK (R150). -/
def execG1Check (a : SlotAddr) (s : State) : Host.Outcome State Fault Refusal :=
  groupCheck groupG1 0x5A a s

/-- G1.AFFINE (R151). -/
def execG1Affine (d a : SlotAddr) (s : State) : Host.Outcome State Fault Refusal :=
  groupAffine groupG1 0x5B d a s

/-- G1.AFFB (R152). -/
def execG1Affb (d a : SlotAddr) (s : State) : Host.Outcome State Fault Refusal :=
  groupAffb groupG1 0x5C d a s

/-- G1.MSM (R168). -/
def execG1Msm (d a b : SlotAddr) (s : State) : Host.Outcome State Fault Refusal :=
  groupMsm groupG1 0x5D d a b s

/-- G1.ISAFFINE (R153). -/
def execG1Isaffine (a : SlotAddr) (s : State) : Host.Outcome State Fault Refusal :=
  groupIsaffine groupG1 0x5E a s

/-- G1.MULCT (R145). -/
def execG1Mulct (d a b : SlotAddr) (s : State) : Host.Outcome State Fault Refusal :=
  groupMulct groupG1 0x5F d a b s

end Sys2Proof.Machine
end

