-- ==== Sys2Proof/Machine/G2Commands.lean ====
section
/-! DEFINITION. The G2 commands (42_curve.md, R168): each is the group command of GroupCommands at G2. -/

namespace Sys2Proof.Machine

/-- G2.ADD (R139). -/
def execG2Add (d a b : SlotAddr) (s : State) : Host.Outcome State Fault Refusal :=
  groupAdd groupG2 0x60 d a b s

/-- G2.ADDM (R140). -/
def execG2Addm (d a b : SlotAddr) (s : State) : Host.Outcome State Fault Refusal :=
  groupAddm groupG2 0x61 d a b s

/-- G2.DBL (R141). -/
def execG2Dbl (d a : SlotAddr) (s : State) : Host.Outcome State Fault Refusal :=
  groupDbl groupG2 0x62 d a s

/-- G2.NEG (R142). -/
def execG2Neg (d a : SlotAddr) (s : State) : Host.Outcome State Fault Refusal :=
  groupNeg groupG2 0x63 d a s

/-- G2.SUB (R143). -/
def execG2Sub (d a b : SlotAddr) (s : State) : Host.Outcome State Fault Refusal :=
  groupSub groupG2 0x64 d a b s

/-- G2.MUL (R144). -/
def execG2Mul (d a b : SlotAddr) (s : State) : Host.Outcome State Fault Refusal :=
  groupMul groupG2 0x65 d a b s

/-- G2.EQ (R146). -/
def execG2Eq (a b : SlotAddr) (s : State) : Host.Outcome State Fault Refusal :=
  groupEq groupG2 0x66 a b s

/-- G2.ISZERO (R147). -/
def execG2Iszero (a : SlotAddr) (s : State) : Host.Outcome State Fault Refusal :=
  groupIszero groupG2 0x67 a s

/-- G2.ONCURVE (R148). -/
def execG2Oncurve (a : SlotAddr) (s : State) : Host.Outcome State Fault Refusal :=
  groupOncurve groupG2 0x68 a s

/-- G2.INSUB (R149). -/
def execG2Insub (a : SlotAddr) (s : State) : Host.Outcome State Fault Refusal :=
  groupInsub groupG2 0x69 a s

/-- G2.CHECK (R150). -/
def execG2Check (a : SlotAddr) (s : State) : Host.Outcome State Fault Refusal :=
  groupCheck groupG2 0x6A a s

/-- G2.AFFINE (R151). -/
def execG2Affine (d a : SlotAddr) (s : State) : Host.Outcome State Fault Refusal :=
  groupAffine groupG2 0x6B d a s

/-- G2.AFFB (R152). -/
def execG2Affb (d a : SlotAddr) (s : State) : Host.Outcome State Fault Refusal :=
  groupAffb groupG2 0x6C d a s

/-- G2.MSM (R168). -/
def execG2Msm (d a b : SlotAddr) (s : State) : Host.Outcome State Fault Refusal :=
  groupMsm groupG2 0x6D d a b s

/-- G2.ISAFFINE (R153). -/
def execG2Isaffine (a : SlotAddr) (s : State) : Host.Outcome State Fault Refusal :=
  groupIsaffine groupG2 0x6E a s

/-- G2.MULCT (R145). -/
def execG2Mulct (d a b : SlotAddr) (s : State) : Host.Outcome State Fault Refusal :=
  groupMulct groupG2 0x6F d a b s

end Sys2Proof.Machine
end

