-- ==== Sys2Proof/Machine/PairingEngine.lean ====
section
/-! DEFINITION. The optimal-ate Miller loop and the final exponentiation (43_pairing.md, R155 to R164), on values. -/

namespace Sys2Proof.Machine

/-- A line-coefficient triple (R156). -/
structure Line where
  c0 : Fp2
  c1 : Fp2
  c2 : Fp2
  deriving DecidableEq, Repr

/-- The line that folds to a multiplication by 1: read past the end of a buffer, which no loop does (R156). -/
def Line.unit : Line := ⟨Fp2.one, Fp2.zero, Fp2.zero⟩

/-- h/2: multiplication by 2^(−1) mod p (R157). -/
def Fp2.half (x : Fp2) : Fp2 := ⟨x.c0.half, x.c1.half⟩

def Fp2.triple (x : Fp2) : Fp2 := x.dbl.add x

/-- DSTEP, the "Formula 3" doubling of the homogeneous projective T (R157). -/
def dstep (t : Point Fp2) : Point Fp2 × Line :=
  let a := (t.x.mul t.y).half
  let b := t.y.sqr
  let c := t.z.sqr
  let e := curveG2.bn.mul c.triple
  let f := e.triple
  let g := (b.add f).half
  let h := (t.y.add t.z).sqr.sub (b.add c)
  (⟨a.mul (b.sub f), g.sqr.sub e.sqr.triple, b.mul h⟩, ⟨e.sub b, t.x.sqr.triple, h.neg⟩)

/-- ASTEP, the "Algorithm 12" mixed addition of (qx, qy) to T (R158). -/
def astep (t : Point Fp2) (qx qy : Fp2) : Point Fp2 × Line :=
  let theta := t.y.sub (qy.mul t.z)
  let lambda := t.x.sub (qx.mul t.z)
  let c := theta.sqr
  let d := lambda.sqr
  let e := lambda.mul d
  let f := t.z.mul c
  let g := t.x.mul d
  let h := (e.add f).sub g.dbl
  (⟨lambda.mul h, (theta.mul (g.sub h)).sub (e.mul t.y), t.z.mul e⟩,
   ⟨(theta.mul qx).sub (lambda.mul qy), theta.neg, lambda⟩)

/-- The walk of R156 over the bits n−1 down to 0 of |x|. -/
def lineWalk (qx qy : Fp2) : Nat → Point Fp2 → List Line
  | 0, _ => []
  | i + 1, t =>
    let (t, c) := dstep t
    if Config.seedAbs.testBit i then
      let (t, c') := astep t qx qy
      c :: c' :: lineWalk qx qy i t
    else c :: lineWalk qx qy i t

/-- The line coefficients of an affine Q = (qx, qy): bits 62 down to 0 (R156). -/
def lineCoefficients (qx qy : Fp2) : List Line := lineWalk qx qy 63 ⟨qx, qy, Fp2.one⟩

/-- A prepared pair: P affine, and the line coefficients of Q (R155, R156). -/
structure Prepared where
  px : Fp
  py : Fp
  lines : List Line
  deriving DecidableEq, Repr

/-- A pair in which either point is the identity is skipped; every other is normalised to affine (R155, D36). -/
def prepare (P : Point Fp) (Q : Point Fp2) : Option Prepared :=
  if curveG1.isIdentity P || curveG2.isIdentity Q then none
  else
    let p := curveG1.affine P
    let q := curveG2.affine Q
    some ⟨p.x, p.y, lineCoefficients q.x q.y⟩

/-- The prepared pairs of two lists, in list order (R155). -/
def prepareAll (Ps : List (Point Fp)) (Qs : List (Point Fp2)) : List Prepared :=
  (Ps.zip Qs).filterMap fun pq => prepare pq.1 pq.2

/-- ELL: a triple evaluated at P and folded into f (R159). -/
def ell (f : Fp12) (c : Line) (px py : Fp) : Fp12 := f.mulBy014 c.c0 (c.c1.scale px) (c.c2.scale py)

/-- `for each prepared pair m: f <- ELL(f, L_m[j], P_m)` (R160). -/
def foldLines (pairs : List Prepared) (j : Nat) (f : Fp12) : Fp12 :=
  pairs.foldl (fun f m => ell f (m.lines.getD j Line.unit) m.px m.py) f

/-- The loop of R160 over the bits n−1 down to 0 of |x|; `j` is the next line. -/
def millerLoop (pairs : List Prepared) : Nat → Nat → Fp12 → Fp12
  | 0, _, f => f
  | i + 1, j, f =>
    let f := if j > 0 then f.sqr else f
    let f := foldLines pairs j f
    if Config.seedAbs.testBit i then millerLoop pairs i (j + 2) (foldLines pairs (j + 1) f)
    else millerLoop pairs i (j + 1) f

/-- The Miller value of two lists of points (R160). -/
def miller (Ps : List (Point Fp)) (Qs : List (Point Fp2)) : Fp12 :=
  (millerLoop (prepareAll Ps Qs) 63 0 Fp12.one).conj

/-- The loop of R162 over the bits n−1 down to 0 of |x|. -/
def cexpLoop (f : Fp12) : Nat → Fp12 → Bool → Fp12
  | 0, t, _ => t
  | i + 1, t, started =>
    let bit := Config.seedAbs.testBit i
    let t := if started then t.csqr else t
    cexpLoop f i (if bit then t.mul f else t) (started || bit)

/-- Cyclotomic exponentiation by the seed (R162): the conjugate of f^|x|, with cyclotomic squarings. -/
def cexp (f : Fp12) : Fp12 := (cexpLoop f 64 Fp12.one false).conj

/-- The easy part, f^((p^6 − 1)(p^2 + 1)) (R161). -/
def easyPart (f : Fp12) : Fp12 :=
  let t2 := (f.frob 6).mul f.inv
  (t2.frob 2).mul t2

/-- The hard part: the fixed chain of R161 on the easy part's result. -/
def hardPart (t2 : Fp12) : Fp12 :=
  let t1 := t2.csqr.conj
  let t3 := cexp t2
  let t4 := t3.csqr
  let t5 := t1.mul t3
  let t1 := cexp t5
  let t0 := cexp t1
  let t6 := (cexp t0).mul t4
  let t4 := cexp t6
  let t5 := t5.conj
  let t4 := (t4.mul t5).mul t2
  let t5 := t2.conj
  let t1 := (t1.mul t2).frob 3
  let t6 := (t6.mul t5).frob 1
  let t3 := (t3.mul t0).frob 2
  let t3 := (t3.mul t1).mul t6
  t3.mul t4

/-- The final exponentiation (R161). -/
def finalExp (f : Fp12) : Fp12 := hardPart (easyPart f)

/-- The pairing product of two lists (R163). -/
def pairing (Ps : List (Point Fp)) (Qs : List (Point Fp2)) : Fp12 := finalExp (miller Ps Qs)

end Sys2Proof.Machine
end

