-- ==== Sys2Proof/Machine/PairingCommands.lean ====
section
/-! DEFINITION. The pairing commands (43_pairing.md). MILLER, PAIR and PCHECK are list commands: n G1 points at A and n
G2 points at B (R155). -/

namespace Sys2Proof.Machine

/-- MILLER (R160). -/
def execMiller (d a b : SlotAddr) (s : State) : Host.Outcome State Fault Refusal :=
  let n := s.countLatch.toNat
  listCommand 0x70 s (binary 0x70 layoutFp12 (layoutList n layoutG1) (layoutList n layoutG2) miller d a b s)

/-- FINALEXP (R161). -/
def execFinalexp (d a : SlotAddr) (s : State) : Host.Outcome State Fault Refusal :=
  unary 0x71 layoutFp12 layoutFp12 finalExp d a s

/-- PAIR (R163). -/
def execPair (d a b : SlotAddr) (s : State) : Host.Outcome State Fault Refusal :=
  let n := s.countLatch.toNat
  listCommand 0x72 s (binary 0x72 layoutFp12 (layoutList n layoutG1) (layoutList n layoutG2) pairing d a b s)

/-- PCHECK (R164): whether the product of the pairings is one. -/
def execPcheck (a b : SlotAddr) (s : State) : Host.Outcome State Fault Refusal :=
  let n := s.countLatch.toNat
  listCommand 0x73 s
    (test2 0x73 (layoutList n layoutG1) (layoutList n layoutG2) (fun P Q => decide (pairing P Q = Fp12.one)) a b s)

/-- CEXP (R162). -/
def execCexp (d a : SlotAddr) (s : State) : Host.Outcome State Fault Refusal :=
  unary 0x74 layoutFp12 layoutFp12 cexp d a s

end Sys2Proof.Machine
end

