-- ==== Sys2Proof/Machine/ScalarCommands.lean ====
section
/-! DEFINITION. The scalar commands (44_scalar_msm.md): WNAF and FROMWNAF. -/

namespace Sys2Proof.Machine

/-- WNAF (R165): the digits of a scalar, and RESULT their number. A width outside 2 to 8 is RESERVED_FIELD (R73), which
the decoder reports for a word. -/
def execWnaf (d a : SlotAddr) (w : BitVec 8) (s : State) : Host.Outcome State Fault Refusal :=
  if w.toNat < 2 ∨ w.toNat > 8 then finish 0x80 s (.error (.raise ⟨.reservedField, .none, 0, 0⟩))
  else
    commandDA 0x80 layoutWN.extent layoutSC d a s fun k =>
      let digits := wnafDigitsOf w.toNat k
      .ok { writes := place d.toNat (layoutWN.words (digitBytes digits)), result := BitVec.ofNat 64 digits.length }

/-- FROMWNAF (R166): the sum of the digits, OUT_OF_FIELD when it is no scalar. -/
def execFromwnaf (d a : SlotAddr) (s : State) : Host.Outcome State Fault Refusal :=
  commandDA 0x81 1 layoutWN d a s fun digits =>
    let v := digitSum digits
    if v < 0 ∨ v ≥ 2 ^ 256 then .error (outOfField .a 0 a.toNat)
    else writeD layoutSC d v.toNat

end Sys2Proof.Machine
end

