-- ==== Sys2Proof/Machine/Dispatch.lean ====
section
/-! DEFINITION. One arm per command: its meaning. -/

namespace Sys2Proof.Machine

def exec (i : Instr) (s : State) : Host.Outcome State Fault Refusal :=
  match i with
  | .nop => Sys2Proof.Machine.execNop s
  | .copy d a k => Sys2Proof.Machine.execCopy d a k s
  | .ldc d k => Sys2Proof.Machine.execLdc d k s
  | .fpAdd d a b => Sys2Proof.Machine.execFpAdd d a b s
  | .fpSub d a b => Sys2Proof.Machine.execFpSub d a b s
  | .fpDbl d a => Sys2Proof.Machine.execFpDbl d a s
  | .fpNeg d a => Sys2Proof.Machine.execFpNeg d a s
  | .fpMul d a b => Sys2Proof.Machine.execFpMul d a b s
  | .fpSqr d a => Sys2Proof.Machine.execFpSqr d a s
  | .fpTomont d a => Sys2Proof.Machine.execFpTomont d a s
  | .fpFrommont d a => Sys2Proof.Machine.execFpFrommont d a s
  | .fpInv d a => Sys2Proof.Machine.execFpInv d a s
  | .fpSqrt d a => Sys2Proof.Machine.execFpSqrt d a s
  | .fpIsqnr a => Sys2Proof.Machine.execFpIsqnr a s
  | .fpEq a b => Sys2Proof.Machine.execFpEq a b s
  | .fpIszero a => Sys2Proof.Machine.execFpIszero a s
  | .fp2Add d a b => Sys2Proof.Machine.execFp2Add d a b s
  | .fp2Sub d a b => Sys2Proof.Machine.execFp2Sub d a b s
  | .fp2Dbl d a => Sys2Proof.Machine.execFp2Dbl d a s
  | .fp2Neg d a => Sys2Proof.Machine.execFp2Neg d a s
  | .fp2Mul d a b => Sys2Proof.Machine.execFp2Mul d a b s
  | .fp2Sqr d a => Sys2Proof.Machine.execFp2Sqr d a s
  | .fp2Inv d a => Sys2Proof.Machine.execFp2Inv d a s
  | .fp2Conj d a => Sys2Proof.Machine.execFp2Conj d a s
  | .fp2Frob d a k => Sys2Proof.Machine.execFp2Frob d a k s
  | .fp2Eq a b => Sys2Proof.Machine.execFp2Eq a b s
  | .fp6Add d a b => Sys2Proof.Machine.execFp6Add d a b s
  | .fp6Sub d a b => Sys2Proof.Machine.execFp6Sub d a b s
  | .fp6Dbl d a => Sys2Proof.Machine.execFp6Dbl d a s
  | .fp6Neg d a => Sys2Proof.Machine.execFp6Neg d a s
  | .fp6Mul d a b => Sys2Proof.Machine.execFp6Mul d a b s
  | .fp6Sqr d a => Sys2Proof.Machine.execFp6Sqr d a s
  | .fp6Inv d a => Sys2Proof.Machine.execFp6Inv d a s
  | .fp6Frob d a k => Sys2Proof.Machine.execFp6Frob d a k s
  | .fp6Mulby01 d a b => Sys2Proof.Machine.execFp6Mulby01 d a b s
  | .fp6Mulby1 d a b => Sys2Proof.Machine.execFp6Mulby1 d a b s
  | .fp6Eq a b => Sys2Proof.Machine.execFp6Eq a b s
  | .fp12Add d a b => Sys2Proof.Machine.execFp12Add d a b s
  | .fp12Sub d a b => Sys2Proof.Machine.execFp12Sub d a b s
  | .fp12Dbl d a => Sys2Proof.Machine.execFp12Dbl d a s
  | .fp12Neg d a => Sys2Proof.Machine.execFp12Neg d a s
  | .fp12Mul d a b => Sys2Proof.Machine.execFp12Mul d a b s
  | .fp12Sqr d a => Sys2Proof.Machine.execFp12Sqr d a s
  | .fp12Inv d a => Sys2Proof.Machine.execFp12Inv d a s
  | .fp12Conj d a => Sys2Proof.Machine.execFp12Conj d a s
  | .fp12Frob d a k => Sys2Proof.Machine.execFp12Frob d a k s
  | .fp12Mulby014 d a b => Sys2Proof.Machine.execFp12Mulby014 d a b s
  | .fp12Mulby034 d a b => Sys2Proof.Machine.execFp12Mulby034 d a b s
  | .fp12Csqr d a => Sys2Proof.Machine.execFp12Csqr d a s
  | .fp12Eq a b => Sys2Proof.Machine.execFp12Eq a b s
  | .g1Add d a b => Sys2Proof.Machine.execG1Add d a b s
  | .g1Addm d a b => Sys2Proof.Machine.execG1Addm d a b s
  | .g1Dbl d a => Sys2Proof.Machine.execG1Dbl d a s
  | .g1Neg d a => Sys2Proof.Machine.execG1Neg d a s
  | .g1Sub d a b => Sys2Proof.Machine.execG1Sub d a b s
  | .g1Mul d a b => Sys2Proof.Machine.execG1Mul d a b s
  | .g1Eq a b => Sys2Proof.Machine.execG1Eq a b s
  | .g1Iszero a => Sys2Proof.Machine.execG1Iszero a s
  | .g1Oncurve a => Sys2Proof.Machine.execG1Oncurve a s
  | .g1Insub a => Sys2Proof.Machine.execG1Insub a s
  | .g1Check a => Sys2Proof.Machine.execG1Check a s
  | .g1Affine d a => Sys2Proof.Machine.execG1Affine d a s
  | .g1Affb d a => Sys2Proof.Machine.execG1Affb d a s
  | .g1Msm d a b => Sys2Proof.Machine.execG1Msm d a b s
  | .g1Isaffine a => Sys2Proof.Machine.execG1Isaffine a s
  | .g1Mulct d a b => Sys2Proof.Machine.execG1Mulct d a b s
  | .g2Add d a b => Sys2Proof.Machine.execG2Add d a b s
  | .g2Addm d a b => Sys2Proof.Machine.execG2Addm d a b s
  | .g2Dbl d a => Sys2Proof.Machine.execG2Dbl d a s
  | .g2Neg d a => Sys2Proof.Machine.execG2Neg d a s
  | .g2Sub d a b => Sys2Proof.Machine.execG2Sub d a b s
  | .g2Mul d a b => Sys2Proof.Machine.execG2Mul d a b s
  | .g2Eq a b => Sys2Proof.Machine.execG2Eq a b s
  | .g2Iszero a => Sys2Proof.Machine.execG2Iszero a s
  | .g2Oncurve a => Sys2Proof.Machine.execG2Oncurve a s
  | .g2Insub a => Sys2Proof.Machine.execG2Insub a s
  | .g2Check a => Sys2Proof.Machine.execG2Check a s
  | .g2Affine d a => Sys2Proof.Machine.execG2Affine d a s
  | .g2Affb d a => Sys2Proof.Machine.execG2Affb d a s
  | .g2Msm d a b => Sys2Proof.Machine.execG2Msm d a b s
  | .g2Isaffine a => Sys2Proof.Machine.execG2Isaffine a s
  | .g2Mulct d a b => Sys2Proof.Machine.execG2Mulct d a b s
  | .miller d a b => Sys2Proof.Machine.execMiller d a b s
  | .finalexp d a => Sys2Proof.Machine.execFinalexp d a s
  | .pair d a b => Sys2Proof.Machine.execPair d a b s
  | .pcheck a b => Sys2Proof.Machine.execPcheck a b s
  | .cexp d a => Sys2Proof.Machine.execCexp d a s
  | .wnaf d a k => Sys2Proof.Machine.execWnaf d a k s
  | .fromwnaf d a => Sys2Proof.Machine.execFromwnaf d a s

end Sys2Proof.Machine
end

