-- ==== Sys2Proof/Machine/HostPort.lean ====
section
/-! DEFINITION. The host port (20_memory.md, 10_state.md section 3): the address map, the registers as the host reads
and writes them, which accesses stall, and who moves next. -/

namespace Sys2Proof.Machine

/-- What a host address is (R42). -/
inductive Region where
  /-- A register offset, 0x000 to 0xFFF (R25). -/
  | csr (offset : Nat)
  /-- The OM window; the address is the offset of a limb (R44). -/
  | om (addr : Nat)
  /-- Reads 0, ignores writes (R42). -/
  | reserved
  deriving DecidableEq, Repr

/-- The address map (R42), which depends on N_SLOTS. -/
def region (s : State) (addr : HostAddr) : Region :=
  let a := addr.toNat
  if a < 0x1000 then .csr a
  else if Config.omBase ≤ a ∧ a < slotAddress s.nSlots then .om a
  else .reserved

/-- The slot an address of the OM window lies in (R44). -/
def slotOfAddress (addr : Nat) : Nat := (addr - Config.omBase) / slotBytes

/-- The legal accesses: 64 bits at a multiple of 8 (R43). -/
def legalAccess (addr : HostAddr) (width : Nat) : Bool := decide (width = 8) && decide (addr.toNat % 8 = 0)

/-- A register as the host reads it (R25 to R36). Reading has no side effect (R47). -/
def csrRead (s : State) (offset : Nat) : Word :=
  match offset with
  | 0x000 => Config.idValue
  | 0x008 => s.params
  | 0x010 => ctrlWord s
  | 0x018 => statusWord s
  | 0x020 => errCodeWord s
  | 0x028 => s.errInfo.word
  | 0x030 => s.count.setWidth 64
  | 0x038 => s.result
  | 0x040 => s.cmd
  | _ => 0

/-- A write of CTRL (R28, R182). DEDUCED (log 10), unsafe: with SRST = 1 all of CTRL becomes 0, IRQ_EN too. -/
def writeCtrl (s : State) (v : Word) : State :=
  if v.getLsbD 1 then s.softReset else { s with irqEn := v.getLsbD 0 }

/-- A write of STATUS: DONE and STICKY_ERR are write-1-to-clear, the other bits ignore writes (R29). -/
def writeStatus (s : State) (v : Word) : State :=
  { s with done := s.done && !v.getLsbD 1, stickyErr := s.stickyErr && !v.getLsbD 4 }

/-- A write of a register (R25 to R36). Writes of read-only and reserved offsets are ignored. -/
def csrWrite (s : State) (offset : Nat) (v : Word) : State :=
  match offset with
  | 0x010 => writeCtrl s v
  | 0x018 => writeStatus s v
  | 0x030 => { s with count := v.setWidth 32 }
  | 0x040 => s.accept v
  | _ => s

/-- The host gets an answer (R186). -/
def State.answer (s : State) (r : Answer) : State := { s with answers := r :: s.answers }

/-- A read access is performed (R43, R44). -/
def performRead (s : State) (addr : HostAddr) (width : Nat) : Host.Outcome State Fault Refusal :=
  if legalAccess addr width then
    match region s addr with
    | .csr offset => .next (s.answer (.data (csrRead s offset)))
    | .reserved => .next (s.answer (.data 0))
    | .om a =>
      match Memory.readLimb s.om a with
      | some v => .next (s.answer (.data v))
      | none => .fault (.unwrittenSlot (slotOfAddress a))
  else .next (s.answer .busError)

/-- A write access is performed (R43, R44). -/
def performWrite (s : State) (addr : HostAddr) (width : Nat) (v : Word) : Host.Outcome State Fault Refusal :=
  if legalAccess addr width then
    match region s addr with
    | .csr offset => .next ((csrWrite s offset v).answer .written)
    | .reserved => .next (s.answer .written)
    | .om a => .next ({ s with om := Memory.writeLimb s.om a v }.answer .written)
  else .next (s.answer .busError)

/-- A host event is performed: an access, or the hard reset (R181). -/
def perform (s : State) (e : HostEvent) : Host.Outcome State Fault Refusal :=
  match e with
  | .read addr width => performRead s addr width
  | .write addr width v => performWrite s addr width v
  | .hardReset => .next s.hardReset

/-- The accesses that stall while a command runs (R48): every access to the OM window, and the writes of CMD and COUNT.
DESIGN CHOICE (log 9), unsafe: an access that breaks R43 is answered at once with the bus error. -/
def stalls (s : State) (e : HostEvent) : Bool :=
  match e with
  | .read addr width =>
    legalAccess addr width &&
      match region s addr with
      | .om _ => true
      | _ => false
  | .write addr width _ =>
    legalAccess addr width &&
      match region s addr with
      | .om _ => true
      | .csr offset => offset == 0x030 || offset == 0x040
      | .reserved => false
  | .hardReset => false

/-- The host's next event while a command runs: held where it stalls, performed otherwise (R48). -/
def hostWhileBusy (s : State) (e : HostEvent) : Host.Outcome State Fault Refusal :=
  if stalls s e then .next { s with stalled := s.stalled ++ [e] } else perform s e

/-- A step of an idle block: the oldest held access, then the host's next event, else nothing (R60, R182, R187).
DESIGN CHOICE (log 11), unsafe: a hard reset too waits for every held access, which is performed on the state before it. -/
def idleMove (s : State) : Host.Outcome State Fault Refusal :=
  match s.stalled with
  | e :: rest => perform { s with stalled := rest } e
  | [] =>
    match s.host with
    | e :: rest => perform { s with host := rest } e
    | [] => .next s

/-- A move: the sequencer runs the latched command to its completion, or the host's side has its outcome. -/
inductive Move where
  | run (s : State)
  | host (o : Host.Outcome State Fault Refusal)

/-- Who moves next (R20). While a command runs, `sched` says so, which stands for the open LATENCY (R185, log 5): the
sequencer moves where it says so, where it says nothing, and where the host has nothing to do. -/
def nextMove (s : State) : Move :=
  if s.busy then
    match s.sched, s.host with
    | .host :: moves, e :: rest => .host (hostWhileBusy { s with sched := moves, host := rest } e)
    | .host :: moves, [] => .run { s with sched := moves }
    | .sequencer :: moves, _ => .run { s with sched := moves }
    | [], _ => .run s
  else .host (idleMove s)

/-! ### Host sequences (R76) -/

/-- SETCOUNT n: `MemWrite(0x030, 8, n)`. -/
def hostSetCount (n : BitVec 32) : HostEvent := .write 0x030 8 (n.setWidth 64)

/-- The submission of RUN w: `MemWrite(0x040, 8, w)`; its WAIT is a run of the machine until BUSY = 0. -/
def hostSubmit (w : Word) : HostEvent := .write 0x040 8 w

/-- A slot written through the port, limb 0 first (R44). -/
def hostWriteSlot (slot : Nat) (v : SlotWord) : List HostEvent :=
  (List.range 6).map fun l =>
    .write (BitVec.ofNat 22 (slotAddress slot + limbBytes * l)) 8 (v.extractLsb' (64 * l) 64)

end Sys2Proof.Machine
end

