-- ==== Sys2Proof/Machine/Step.lean ====
section
/-! DEFINITION. One step: a host event, or the completion of the latched command (R20, R69). -/

namespace Sys2Proof.Machine

/-- One step of the machine. Where the sequencer moves, it runs the latched command word: the command the word stands
for, or its rejection (R69 steps 2 to 4). -/
def step (s : State) : Host.Outcome State Fault Refusal :=
  match nextMove s with
  | .host o => o
  | .run s' =>
    match decode s'.cmd with
    | .ok i => exec i s'
    | .error e => .next (s'.rejectWord e)

/-- The state in which the command word with bits `w` has just been accepted (R69 step 1), so that the next step runs
it: the block has no program counter, and the latched word is what `step` fetches. -/
def State.withFetchWord (s : State) (nbits w : Nat) : State :=
  { s.accept (BitVec.ofNat 64 (w % 2 ^ nbits)) with sched := [] }

end Sys2Proof.Machine
end

