-- ==== Sys2Proof/Safety.lean ====
section
/-! DEFINITION. What claims about the machine are stated in: operands that are in place, the operand table of R72, the
invariant of the machine, and the states a command cannot tell apart. -/

namespace Sys2Proof.Machine

/-! ### Operands in place -/

/-- An operand's extent lies inside operand memory (R68). -/
def fits (s : State) (base : SlotAddr) (extent : Nat) : Bool := decide (base.toNat + extent ≤ s.nSlots)

/-- The slots from `base` on hold `ws`. -/
def slotsHold (s : State) : Nat → List SlotWord → Bool
  | _, [] => true
  | base, w :: ws => decide (s.slot base = some w) && slotsHold s (base + 1) ws

/-- An operand of layout L is in place: it fits, and its slots hold the words of the value x (R49 to R55). -/
def holds {α : Type} (L : Layout α) (s : State) (base : SlotAddr) (x : α) : Bool :=
  fits s base L.extent && slotsHold s base.toNat (L.words x)

/-- What holds while a command runs (R69 step 1, R30, R31, R32, R34): the cleared values of acceptance. -/
def accepted (s : State) : Bool :=
  s.busy && !s.done && !s.flag && decide (s.result = 0) && decide (s.errCode = .none) && decide (s.errInfo = .zero)

/-! ### The operands of a command (R66, R72) -/

/-- How a command looks at the slots of an operand (R175 check 5). -/
inductive SlotKind where
  /-- A destination: its slots are never read. -/
  | result
  /-- Each slot is an Fp word, below p. -/
  | field
  /-- Each slot is a scalar below 2^256 and below the bound. -/
  | scalar (bound : Nat)
  /-- The slots are read and not checked: RAW and WN. -/
  | raw
  deriving DecidableEq, Repr

/-- One operand of a command: its field, its base slot, how many elements it has, the extent of one, and their kind. -/
structure Use where
  operand : Operand
  base : SlotAddr
  count : Nat
  size : Nat
  kind : SlotKind
  deriving DecidableEq, Repr

/-- The total extent of an operand (R66). -/
def Use.extent (u : Use) : Nat := u.count * u.size

/-- The operands of a command in the order D, A, B, as the opcode map of R72 gives them; n is COUNT. -/
def uses (n : Nat) : Instr → List Use
  | .nop => []
  | .copy d a k => [⟨.d, d, 1, k.toNat + 1, .result⟩, ⟨.a, a, 1, k.toNat + 1, .raw⟩]
  | .ldc d k => [⟨.d, d, 1, ((romEntry k.toNat).getD []).length, .result⟩]
  | .fpAdd d a b => [⟨.d, d, 1, 1, .result⟩, ⟨.a, a, 1, 1, .field⟩, ⟨.b, b, 1, 1, .field⟩]
  | .fpSub d a b => [⟨.d, d, 1, 1, .result⟩, ⟨.a, a, 1, 1, .field⟩, ⟨.b, b, 1, 1, .field⟩]
  | .fpDbl d a => [⟨.d, d, 1, 1, .result⟩, ⟨.a, a, 1, 1, .field⟩]
  | .fpNeg d a => [⟨.d, d, 1, 1, .result⟩, ⟨.a, a, 1, 1, .field⟩]
  | .fpMul d a b => [⟨.d, d, 1, 1, .result⟩, ⟨.a, a, 1, 1, .field⟩, ⟨.b, b, 1, 1, .field⟩]
  | .fpSqr d a => [⟨.d, d, 1, 1, .result⟩, ⟨.a, a, 1, 1, .field⟩]
  | .fpTomont d a => [⟨.d, d, 1, 1, .result⟩, ⟨.a, a, 1, 1, .field⟩]
  | .fpFrommont d a => [⟨.d, d, 1, 1, .result⟩, ⟨.a, a, 1, 1, .field⟩]
  | .fpInv d a => [⟨.d, d, 1, 1, .result⟩, ⟨.a, a, 1, 1, .field⟩]
  | .fpSqrt d a => [⟨.d, d, 1, 1, .result⟩, ⟨.a, a, 1, 1, .field⟩]
  | .fpIsqnr a => [⟨.a, a, 1, 1, .field⟩]
  | .fpEq a b => [⟨.a, a, 1, 1, .field⟩, ⟨.b, b, 1, 1, .field⟩]
  | .fpIszero a => [⟨.a, a, 1, 1, .field⟩]
  | .fp2Add d a b => [⟨.d, d, 1, 2, .result⟩, ⟨.a, a, 1, 2, .field⟩, ⟨.b, b, 1, 2, .field⟩]
  | .fp2Sub d a b => [⟨.d, d, 1, 2, .result⟩, ⟨.a, a, 1, 2, .field⟩, ⟨.b, b, 1, 2, .field⟩]
  | .fp2Dbl d a => [⟨.d, d, 1, 2, .result⟩, ⟨.a, a, 1, 2, .field⟩]
  | .fp2Neg d a => [⟨.d, d, 1, 2, .result⟩, ⟨.a, a, 1, 2, .field⟩]
  | .fp2Mul d a b => [⟨.d, d, 1, 2, .result⟩, ⟨.a, a, 1, 2, .field⟩, ⟨.b, b, 1, 2, .field⟩]
  | .fp2Sqr d a => [⟨.d, d, 1, 2, .result⟩, ⟨.a, a, 1, 2, .field⟩]
  | .fp2Inv d a => [⟨.d, d, 1, 2, .result⟩, ⟨.a, a, 1, 2, .field⟩]
  | .fp2Conj d a => [⟨.d, d, 1, 2, .result⟩, ⟨.a, a, 1, 2, .field⟩]
  | .fp2Frob d a _ => [⟨.d, d, 1, 2, .result⟩, ⟨.a, a, 1, 2, .field⟩]
  | .fp2Eq a b => [⟨.a, a, 1, 2, .field⟩, ⟨.b, b, 1, 2, .field⟩]
  | .fp6Add d a b => [⟨.d, d, 1, 6, .result⟩, ⟨.a, a, 1, 6, .field⟩, ⟨.b, b, 1, 6, .field⟩]
  | .fp6Sub d a b => [⟨.d, d, 1, 6, .result⟩, ⟨.a, a, 1, 6, .field⟩, ⟨.b, b, 1, 6, .field⟩]
  | .fp6Dbl d a => [⟨.d, d, 1, 6, .result⟩, ⟨.a, a, 1, 6, .field⟩]
  | .fp6Neg d a => [⟨.d, d, 1, 6, .result⟩, ⟨.a, a, 1, 6, .field⟩]
  | .fp6Mul d a b => [⟨.d, d, 1, 6, .result⟩, ⟨.a, a, 1, 6, .field⟩, ⟨.b, b, 1, 6, .field⟩]
  | .fp6Sqr d a => [⟨.d, d, 1, 6, .result⟩, ⟨.a, a, 1, 6, .field⟩]
  | .fp6Inv d a => [⟨.d, d, 1, 6, .result⟩, ⟨.a, a, 1, 6, .field⟩]
  | .fp6Frob d a _ => [⟨.d, d, 1, 6, .result⟩, ⟨.a, a, 1, 6, .field⟩]
  | .fp6Mulby01 d a b => [⟨.d, d, 1, 6, .result⟩, ⟨.a, a, 1, 6, .field⟩, ⟨.b, b, 1, 4, .field⟩]
  | .fp6Mulby1 d a b => [⟨.d, d, 1, 6, .result⟩, ⟨.a, a, 1, 6, .field⟩, ⟨.b, b, 1, 2, .field⟩]
  | .fp6Eq a b => [⟨.a, a, 1, 6, .field⟩, ⟨.b, b, 1, 6, .field⟩]
  | .fp12Add d a b => [⟨.d, d, 1, 12, .result⟩, ⟨.a, a, 1, 12, .field⟩, ⟨.b, b, 1, 12, .field⟩]
  | .fp12Sub d a b => [⟨.d, d, 1, 12, .result⟩, ⟨.a, a, 1, 12, .field⟩, ⟨.b, b, 1, 12, .field⟩]
  | .fp12Dbl d a => [⟨.d, d, 1, 12, .result⟩, ⟨.a, a, 1, 12, .field⟩]
  | .fp12Neg d a => [⟨.d, d, 1, 12, .result⟩, ⟨.a, a, 1, 12, .field⟩]
  | .fp12Mul d a b => [⟨.d, d, 1, 12, .result⟩, ⟨.a, a, 1, 12, .field⟩, ⟨.b, b, 1, 12, .field⟩]
  | .fp12Sqr d a => [⟨.d, d, 1, 12, .result⟩, ⟨.a, a, 1, 12, .field⟩]
  | .fp12Inv d a => [⟨.d, d, 1, 12, .result⟩, ⟨.a, a, 1, 12, .field⟩]
  | .fp12Conj d a => [⟨.d, d, 1, 12, .result⟩, ⟨.a, a, 1, 12, .field⟩]
  | .fp12Frob d a _ => [⟨.d, d, 1, 12, .result⟩, ⟨.a, a, 1, 12, .field⟩]
  | .fp12Mulby014 d a b => [⟨.d, d, 1, 12, .result⟩, ⟨.a, a, 1, 12, .field⟩, ⟨.b, b, 1, 6, .field⟩]
  | .fp12Mulby034 d a b => [⟨.d, d, 1, 12, .result⟩, ⟨.a, a, 1, 12, .field⟩, ⟨.b, b, 1, 6, .field⟩]
  | .fp12Csqr d a => [⟨.d, d, 1, 12, .result⟩, ⟨.a, a, 1, 12, .field⟩]
  | .fp12Eq a b => [⟨.a, a, 1, 12, .field⟩, ⟨.b, b, 1, 12, .field⟩]
  | .g1Add d a b => [⟨.d, d, 1, 3, .result⟩, ⟨.a, a, 1, 3, .field⟩, ⟨.b, b, 1, 3, .field⟩]
  | .g1Addm d a b => [⟨.d, d, 1, 3, .result⟩, ⟨.a, a, 1, 3, .field⟩, ⟨.b, b, 1, 3, .field⟩]
  | .g1Dbl d a => [⟨.d, d, 1, 3, .result⟩, ⟨.a, a, 1, 3, .field⟩]
  | .g1Neg d a => [⟨.d, d, 1, 3, .result⟩, ⟨.a, a, 1, 3, .field⟩]
  | .g1Sub d a b => [⟨.d, d, 1, 3, .result⟩, ⟨.a, a, 1, 3, .field⟩, ⟨.b, b, 1, 3, .field⟩]
  | .g1Mul d a b => [⟨.d, d, 1, 3, .result⟩, ⟨.a, a, 1, 3, .field⟩, ⟨.b, b, 1, 1, .scalar (2 ^ 256)⟩]
  | .g1Eq a b => [⟨.a, a, 1, 3, .field⟩, ⟨.b, b, 1, 3, .field⟩]
  | .g1Iszero a => [⟨.a, a, 1, 3, .field⟩]
  | .g1Oncurve a => [⟨.a, a, 1, 3, .field⟩]
  | .g1Insub a => [⟨.a, a, 1, 3, .field⟩]
  | .g1Check a => [⟨.a, a, 1, 3, .field⟩]
  | .g1Affine d a => [⟨.d, d, 1, 3, .result⟩, ⟨.a, a, 1, 3, .field⟩]
  | .g1Affb d a => [⟨.d, d, n, 3, .result⟩, ⟨.a, a, n, 3, .field⟩]
  | .g1Msm d a b => [⟨.d, d, 1, 3, .result⟩, ⟨.a, a, n, 3, .field⟩, ⟨.b, b, n, 1, .scalar Config.r⟩]
  | .g1Isaffine a => [⟨.a, a, 1, 3, .field⟩]
  | .g1Mulct d a b => [⟨.d, d, 1, 3, .result⟩, ⟨.a, a, 1, 3, .field⟩, ⟨.b, b, 1, 1, .scalar Config.r⟩]
  | .g2Add d a b => [⟨.d, d, 1, 6, .result⟩, ⟨.a, a, 1, 6, .field⟩, ⟨.b, b, 1, 6, .field⟩]
  | .g2Addm d a b => [⟨.d, d, 1, 6, .result⟩, ⟨.a, a, 1, 6, .field⟩, ⟨.b, b, 1, 6, .field⟩]
  | .g2Dbl d a => [⟨.d, d, 1, 6, .result⟩, ⟨.a, a, 1, 6, .field⟩]
  | .g2Neg d a => [⟨.d, d, 1, 6, .result⟩, ⟨.a, a, 1, 6, .field⟩]
  | .g2Sub d a b => [⟨.d, d, 1, 6, .result⟩, ⟨.a, a, 1, 6, .field⟩, ⟨.b, b, 1, 6, .field⟩]
  | .g2Mul d a b => [⟨.d, d, 1, 6, .result⟩, ⟨.a, a, 1, 6, .field⟩, ⟨.b, b, 1, 1, .scalar (2 ^ 256)⟩]
  | .g2Eq a b => [⟨.a, a, 1, 6, .field⟩, ⟨.b, b, 1, 6, .field⟩]
  | .g2Iszero a => [⟨.a, a, 1, 6, .field⟩]
  | .g2Oncurve a => [⟨.a, a, 1, 6, .field⟩]
  | .g2Insub a => [⟨.a, a, 1, 6, .field⟩]
  | .g2Check a => [⟨.a, a, 1, 6, .field⟩]
  | .g2Affine d a => [⟨.d, d, 1, 6, .result⟩, ⟨.a, a, 1, 6, .field⟩]
  | .g2Affb d a => [⟨.d, d, n, 6, .result⟩, ⟨.a, a, n, 6, .field⟩]
  | .g2Msm d a b => [⟨.d, d, 1, 6, .result⟩, ⟨.a, a, n, 6, .field⟩, ⟨.b, b, n, 1, .scalar Config.r⟩]
  | .g2Isaffine a => [⟨.a, a, 1, 6, .field⟩]
  | .g2Mulct d a b => [⟨.d, d, 1, 6, .result⟩, ⟨.a, a, 1, 6, .field⟩, ⟨.b, b, 1, 1, .scalar Config.r⟩]
  | .miller d a b => [⟨.d, d, 1, 12, .result⟩, ⟨.a, a, n, 3, .field⟩, ⟨.b, b, n, 6, .field⟩]
  | .finalexp d a => [⟨.d, d, 1, 12, .result⟩, ⟨.a, a, 1, 12, .field⟩]
  | .pair d a b => [⟨.d, d, 1, 12, .result⟩, ⟨.a, a, n, 3, .field⟩, ⟨.b, b, n, 6, .field⟩]
  | .pcheck a b => [⟨.a, a, n, 3, .field⟩, ⟨.b, b, n, 6, .field⟩]
  | .cexp d a => [⟨.d, d, 1, 12, .result⟩, ⟨.a, a, 1, 12, .field⟩]
  | .wnaf d a _ => [⟨.d, d, 1, 6, .result⟩, ⟨.a, a, 1, 1, .scalar (2 ^ 256)⟩]
  | .fromwnaf d a => [⟨.d, d, 1, 1, .result⟩, ⟨.a, a, 1, 6, .raw⟩]

/-- The commands that take their element count from COUNT (R67): AFFB, MSM, MILLER, PAIR, PCHECK. -/
def isListCommand (i : Instr) : Bool := decide (opcode i ∈ [0x5C, 0x5D, 0x6C, 0x6D, 0x70, 0x72, 0x73])

/-- The commands with a check of their own after the value checks (R175 check 6): SQRT, ADDM, CHECK, FROMWNAF. -/
def hasOwnCheck (i : Instr) : Bool := decide (opcode i ∈ [0x19, 0x51, 0x5A, 0x61, 0x6A, 0x81])

/-- The commands that give FLAG a value (R30): FP.INV, SQRT, ISQNR, EQ, ISZERO; the INV and EQ of the towers; EQ, ISZERO,
ONCURVE, INSUB, CHECK, ISAFFINE of the groups; PCHECK. -/
def setsFlag (i : Instr) : Bool :=
  decide (opcode i ∈ [0x18, 0x19, 0x1A, 0x1B, 0x1C, 0x26, 0x29, 0x36, 0x3A, 0x46, 0x4C, 0x56, 0x57, 0x58, 0x59, 0x5A, 0x5E,
    0x66, 0x67, 0x68, 0x69, 0x6A, 0x6E, 0x73])

/-- The count check passes (R67, R175 check 3). -/
def shapeOk (s : State) (i : Instr) : Bool := !isListCommand i || decide (s.countLatch.toNat ≤ s.maxCount)

/-- The operands of the running command (R72). -/
def usesOf (s : State) (i : Instr) : List Use := uses s.countLatch.toNat i

/-- Every operand fits (R68, R175 check 4). -/
def extentsOk (s : State) (i : Instr) : Bool := (usesOf s i).all fun u => fits s u.base u.extent

/-- A slot a command reads: its operand, its number, the list element it belongs to, and its kind. -/
structure Source where
  operand : Operand
  slot : Nat
  index : Nat
  kind : SlotKind
  deriving DecidableEq, Repr

/-- The slots of an operand in ascending order; the slots of a destination are not read. -/
def Use.sources (u : Use) : List Source :=
  match u.kind with
  | .result => []
  | k => (List.range u.extent).map fun j => ⟨u.operand, u.base.toNat + j, j / u.size, k⟩

/-- Every slot a command reads, in the order of R175 check 5: A's slots, then B's. -/
def sourcesOf (s : State) (i : Instr) : List Source := (usesOf s i).flatMap Use.sources

/-- Whether a slot's contents pass the check of its kind (R175 check 5). -/
def SlotKind.legal : SlotKind → SlotWord → Bool
  | .result, _ => true
  | .field, w => decide (w.toNat < Config.p)
  | .scalar bound, w => decide (w.toNat < 2 ^ 256) && decide (w.toNat < bound)
  | .raw, _ => true

/-- A source slot has been written and passes its check. -/
def Source.ok (s : State) (x : Source) : Bool :=
  match s.slot x.slot with
  | some w => x.kind.legal w
  | none => false

/-- Every operand is in place and every source slot is legal: checks 3 to 5 of R175 pass. -/
def operandsOk (s : State) (i : Instr) : Bool :=
  shapeOk s i && extentsOk s i && (sourcesOf s i).all (Source.ok s)

/-- The slots of a command's destination (R66): base and extent; extent 0 for a command that writes no slot. -/
def destOf (s : State) (i : Instr) : Nat × Nat :=
  match (usesOf s i).find? fun u => decide (u.kind = .result) with
  | some u => (u.base.toNat, u.extent)
  | none => (0, 0)

/-- A byte address outside a command's destination. -/
def outsideDest (s : State) (i : Instr) (addr : Nat) : Bool :=
  decide (addr < slotAddress (destOf s i).1) || decide (slotAddress ((destOf s i).1 + (destOf s i).2) ≤ addr)

/-! ### The effects of commands -/

/-- A result v of layout L written at D, with FLAG 0 and RESULT 0. -/
def writing {α : Type} (L : Layout α) (d : SlotAddr) (v : α) : Effect := { writes := place d.toNat (L.words v) }

/-- A predicate's answer: FLAG alone. -/
def flagging (b : Bool) : Effect := { flag := b }

/-- The command ends in success with the effect e (R69 step 4). -/
def completes (i : Instr) (s : State) (e : Effect) : Prop := exec i s = .next (s.succeed e)

/-- The command ends with one error (R176). -/
def failsWith (i : Instr) (s : State) (e : CmdError) : Prop := exec i s = .next (s.failWith (opcode i) e)

/-! ### Whose turn it is -/

/-- The sequencer moves next, from the state t (R20, R69): the schedule is empty, or names it, or names the host where the
host has nothing to do (log 5). -/
inductive RunsNext : State → State → Prop where
  | unscheduled (s : State) (busy : s.busy = true) (h : s.sched = []) : RunsNext s s
  | chosen (s : State) (moves : List Agent) (busy : s.busy = true) (h : s.sched = .sequencer :: moves) :
      RunsNext s { s with sched := moves }
  | hostIdle (s : State) (moves : List Agent) (busy : s.busy = true) (h : s.sched = .host :: moves) (none : s.host = []) :
      RunsNext s { s with sched := moves }

/-- The host port performs the event e next, against the state t: a held access of an idle block, the host's next event of
an idle block, or an event that does not stall while a command runs (R48, R60). -/
inductive PerformsNext : State → HostEvent → State → Prop where
  | held (s : State) (e : HostEvent) (rest : List HostEvent) (idle : s.busy = false) (h : s.stalled = e :: rest) :
      PerformsNext s e { s with stalled := rest }
  | issued (s : State) (e : HostEvent) (rest : List HostEvent) (idle : s.busy = false) (none : s.stalled = [])
      (h : s.host = e :: rest) : PerformsNext s e { s with host := rest }
  | passing (s : State) (e : HostEvent) (rest : List HostEvent) (moves : List Agent) (busy : s.busy = true)
      (turn : s.sched = .host :: moves) (h : s.host = e :: rest) (free : stalls s e = false) :
      PerformsNext s e { s with sched := moves, host := rest }

/-! ### Invariant and indistinguishability -/

/-- The implementation parameters are in the ranges of R5. -/
def paramsOk (s : State) : Bool :=
  decide (64 ≤ s.nSlots) && decide (s.nSlots ≤ 65536) && decide (1 ≤ s.maxCount)

/-- The invariant of the machine: operand memory is canonical and lies in its window (R42); the parameters are in range
(R5); while a command runs the values of acceptance stand (R69); an idle block has no latched COUNT (R39); an error and a
boolean or integer result exclude each other (R30, R34), and ERRINFO is 0 where there is no error (R32); every held access
is one that stalls (R48). -/
structure Inv (s : State) : Prop where
  canonical : s.om.wf
  inWindow : ∀ c ∈ s.om, Config.omBase ≤ c.1 ∧ c.1 < slotAddress s.nSlots
  params : paramsOk s = true
  running : s.busy = true → accepted s = true
  idleLatch : s.busy = false → s.countLatch = 0
  errorExcludesResult : s.errCode ≠ .none → s.flag = false ∧ s.result = 0
  noErrorNoInfo : s.errCode = .none → s.errInfo = .zero
  held : ∀ e ∈ s.stalled, stalls s e = true

/-- Two states a command cannot tell apart: the same parameters, the same latched COUNT, the same operand memory (R70,
R39). -/
def sameInputs (s t : State) : Prop := s.params = t.params ∧ s.countLatch = t.countLatch ∧ s.om = t.om

/-- What a command leaves for the host (R69 step 4). -/
def sameResults (s t : State) : Prop :=
  s.om = t.om ∧ s.flag = t.flag ∧ s.result = t.result ∧ s.errCode = t.errCode ∧ s.errInfo = t.errInfo ∧
    s.busy = t.busy ∧ s.done = t.done

/-- A stop with the same name, or the same results. -/
def sameOutcome : Host.Outcome State Fault Refusal → Host.Outcome State Fault Refusal → Prop
  | .next s, .next t => sameResults s t
  | .fault f, .fault g => f = g
  | .refused r, .refused q => r = q
  | _, _ => False

end Sys2Proof.Machine
end

