-- ==== Sys2Proof/Certificates/Slice0/Obligations.lean ====
section
/-! DEFINITION. The statements for the provers, from the numbered rules of spec/. Each docstring names the rule. -/

open Sys2Proof Sys2Proof.Machine

/-! ## The command word -/

/-- R65, R66, R72, R73: encoding a command and decoding the word gives the command back, for every command and every
operand value its encoding admits. -/
def Obligations.DecodeEncodeRoundTrip : Prop :=
  ∀ i : Instr, WellFormed i = true → decode (encode i) = .ok i

/-- R65, R66, R73: a word that decodes stands for a command whose fields are in range, and it is that command's word; so no
two words stand for one command. -/
def Obligations.DecodedWordIsTheEncoding : Prop :=
  ∀ (w : Word) (i : Instr), decode w = .ok i → WellFormed i = true ∧ encode i = w

/-- The words that R75, R170 and R171 spell out. -/
def Obligations.SampleWordsDecode : Prop :=
  decode 0x0001000000020014 = .ok (.fpMul 2 0 1) ∧
  decode 0x000100000000001B = .ok (.fpEq 0 1) ∧
  decode 0x00000000000A0201 = .ok (.copy 10 0 2) ∧
  decode 0x0000000000000102 = .ok (.ldc 0 1) ∧
  decode 0x0000000000000000 = .ok .nop ∧
  decode 0x0000000200040128 = .ok (.fp2Frob 4 2 1) ∧
  decode 0x0000000300140480 = .ok (.wnaf 20 3 4) ∧
  decode 0x0028000A0000005D = .ok (.g1Msm 0 10 40)

/-- R74: the mask covers OPC and exactly the unused fields, the match is OPC; a decoded word matches under its mask; a word
with the OPC that does not match is RESERVED_FIELD; no two opcodes' pairs overlap; FP.MUL's and NOP's pairs. -/
def Obligations.MaskAndMatchSeparateOpcodes : Prop :=
  (∀ i : Instr, matchOf i = (opcode i).setWidth 64 ∧
    maskOf i = 0xFF ||| (if (form i).aux = none then 0xFF00 else 0) ||| (if (form i).d = none then 0xFFFF0000 else 0) |||
      (if (form i).a = none then 0xFFFF00000000 else 0) ||| (if (form i).b = none then 0xFFFF000000000000 else 0)) ∧
  (∀ (w : Word) (i : Instr), decode w = .ok i → w &&& maskOf i = matchOf i) ∧
  (∀ (w : Word) (i : Instr), opcOf w = opcode i → w &&& maskOf i ≠ matchOf i →
    ∃ f, decode w = .error (.reservedField f)) ∧
  (∀ (w : Word) (i j : Instr), w &&& maskOf i = matchOf i → w &&& maskOf j = matchOf j → opcode i = opcode j) ∧
  (∀ d a b : SlotAddr, maskOf (.fpMul d a b) = 0x000000000000FFFF ∧ matchOf (.fpMul d a b) = 0x14) ∧
  maskOf .nop = 0xFFFFFFFFFFFFFFFF ∧ matchOf .nop = 0

/-- R73, R173, R175 check 2: the unassigned opcodes are exactly the words that fail with ILLEGAL_OPCODE; LDC with AUX ≥ 10,
WNAF with AUX below 2 or above 8, and a nonzero AUX an opcode does not use are RESERVED_FIELD, whatever the other fields.
R69, R176: the step that runs such a latched word completes it with that error; that step is the sequencer's by the model's
own schedule (log 5). -/
def Obligations.UnassignedAndReservedWordsAreRejected : Prop :=
  (∀ w : Word,
    let n := (opcOf w).toNat
    decode w = .error .illegalOpcode ↔
      (0x03 ≤ n ∧ n ≤ 0x0F) ∨ (0x1D ≤ n ∧ n ≤ 0x1F) ∨ (0x2A ≤ n ∧ n ≤ 0x2F) ∨ (0x3B ≤ n ∧ n ≤ 0x3F) ∨
        (0x4D ≤ n ∧ n ≤ 0x4F) ∨ (0x75 ≤ n ∧ n ≤ 0x7F) ∨ (0x82 ≤ n ∧ n ≤ 0xFF)) ∧
  (∀ w : Word, opcOf w = 0x02 → 10 ≤ (auxOf w).toNat → decode w = .error (.reservedField .none)) ∧
  (∀ w : Word, opcOf w = 0x80 → (auxOf w).toNat < 2 ∨ 8 < (auxOf w).toNat → decode w = .error (.reservedField .none)) ∧
  (∀ (w : Word) (i : Instr), opcOf w = opcode i → (form i).aux = none → auxOf w ≠ 0 →
    decode w = .error (.reservedField .none)) ∧
  (∀ (s t : State) (w : Word), RunsNext s t → s.cmd = w → decode w = .error .illegalOpcode →
    step s = .next (t.failWith (opcOf w) ⟨.illegalOpcode, .none, 0, 0⟩)) ∧
  (∀ (s t : State) (w : Word) (f : Operand), RunsNext s t → s.cmd = w → decode w = .error (.reservedField f) →
    step s = .next (t.failWith (opcOf w) ⟨.reservedField, f, 0, 0⟩))

/-! ## The life of a command -/

/-- A step runs the decoded instruction (R69): where the sequencer moves, the step is the latched word's command, or the
word's rejection. The block has no program counter (R24). -/
def Obligations.StepRunsTheLatchedCommand : Prop :=
  (∀ (s t : State) (i : Instr), RunsNext s t → decode s.cmd = .ok i → step s = exec i t) ∧
  (∀ (s t : State) (e : DecodeError), RunsNext s t → decode s.cmd = .error e → step s = .next (t.rejectWord e)) ∧
  (∀ (s : State) (nbits w : Nat) (i : Instr), decodeTableWord nbits w = some i →
    step (s.withFetchWord nbits w) = exec i (s.withFetchWord nbits w))

/-- R173, R175 checks 1 and 2, R176: the completion of a word that stands for no command, which leaves every other field of
the state. RESERVED_FIELD names the first field, in the order AUX, D, A, B, that the opcode does not use and that is not
zero, or AUX out of its range. Whose step it is follows the model's own schedule (log 5); the latched COUNT is dropped
(log 4). -/
def Obligations.RejectedWordRecordsItsError : Prop :=
  ∀ (s t : State) (e : DecodeError), RunsNext s t → decode s.cmd = .error e →
    ∃ u, step s = .next u ∧ u.om = s.om ∧ u.flag = s.flag ∧ u.result = s.result ∧
      u = { t with busy := false, done := true, stickyErr := true, errCode := u.errCode, errInfo := u.errInfo,
                   countLatch := 0 } ∧
      (e = .illegalOpcode → u.errCode = .illegalOpcode ∧ u.errInfo = ⟨s.cmd.extractLsb' 0 8, .none, 0, 0⟩) ∧
      (∀ f, e = .reservedField f → u.errCode = .reservedField ∧ u.errInfo = ⟨s.cmd.extractLsb' 0 8, f, 0, 0⟩ ∧
        ∃ i : Instr, opcode i = s.cmd.extractLsb' 0 8 ∧
          (let aux := auxOf s.cmd
           let auxLegal := ((form i).aux = none → aux = 0) ∧ (opcode i = 0x02 → aux.toNat < 10) ∧
             (opcode i = 0x80 → 2 ≤ aux.toNat ∧ aux.toNat ≤ 8)
           (f = .none → ¬auxLegal) ∧ (f = .d → (form i).d = none ∧ dOf s.cmd ≠ 0) ∧
             (f = .a → (form i).a = none ∧ aOf s.cmd ≠ 0) ∧ (f = .b → (form i).b = none ∧ bOf s.cmd ≠ 0) ∧
             (f ≠ .none → auxLegal) ∧ (f = .a ∨ f = .b → (form i).d = none → dOf s.cmd = 0) ∧
             (f = .b → (form i).a = none → aOf s.cmd = 0)))

/-- R69 step 1, R33, R35, R63: a CMD write performed by an idle block is accepted; the word and COUNT.N are latched, the
status is cleared, and the irq output falls. -/
def Obligations.CommandWriteIsAccepted : Prop :=
  ∀ (s t : State) (w : Word), s.busy = false → PerformsNext s (.write 0x040 8 w) t →
    ∃ u, step s = .next u ∧
      u = { t with cmd := w, countLatch := t.count, done := false, errCode := .none, errInfo := .zero, flag := false,
                   result := 0, busy := true, answers := .written :: t.answers } ∧
      irq u = false

/-- R172, R176, R69 step 4: a command ends in success or with exactly one error, and no command is refused. An error leaves
operand memory as it stands and FLAG and RESULT at 0; the irq output is then IRQ_EN. -/
def Obligations.EveryCommandEndsOnce : Prop :=
  ∀ (i : Instr) (s : State), accepted s = true →
    (∀ t, exec i s = .next t →
      t.busy = false ∧ t.done = true ∧ irq t = s.irqEn ∧
        ((t.errCode = .none ∧ t.errInfo = .zero ∧ t.stickyErr = s.stickyErr) ∨
          (t.errCode ≠ .none ∧ t.errInfo.opc = opcode i ∧ t.stickyErr = true ∧ t.om = s.om ∧ t.flag = false ∧
            t.result = 0))) ∧
    ∀ r, exec i s ≠ .refused r

/-- R40, R183, D37: the only fault of a command is a source slot that exists and that nothing has written. -/
def Obligations.OnlyUnwrittenSourcesFault : Prop :=
  ∀ (i : Instr) (s : State) (f : Fault), exec i s = .fault f →
    ∃ x ∈ sourcesOf s i, f = .unwrittenSlot x.slot ∧ x.slot < s.nSlots ∧ s.slot x.slot = none

/-- The frame of every command (R33, R66, R70, R186): the parameters, CTRL, COUNT, the CMD read-back and the host's side are
unchanged, and so is every byte of operand memory outside the destination. -/
def Obligations.CommandFrame : Prop :=
  ∀ (i : Instr) (s t : State), exec i s = .next t →
    t.params = s.params ∧ t.irqEn = s.irqEn ∧ t.count = s.count ∧ t.cmd = s.cmd ∧ t.sched = s.sched ∧ t.host = s.host ∧
      t.stalled = s.stalled ∧ t.answers = s.answers ∧ (t.errCode = .none → t.errInfo = s.errInfo) ∧
      (∀ addr, outsideDest s i addr = true → Memory.read t.om addr = Memory.read s.om addr) ∧
      ((form i).d = none → t.om = s.om)

/-- R30, R34: FLAG and RESULT stay 0 but for the commands that give them a value, and for them when they fail. -/
def Obligations.FlagAndResultComeFromTheirCommands : Prop :=
  ∀ (i : Instr) (s t : State), accepted s = true → exec i s = .next t →
    (setsFlag i = false → t.flag = false) ∧ ((∀ d a w, i ≠ .wnaf d a w) → t.result = 0) ∧
      (t.errCode ≠ .none → t.flag = false ∧ t.result = 0)

/-- R70, R39: what a command does is a function of the parameters, the latched COUNT and operand memory at acceptance;
neither the registers nor an earlier command's state play a part. -/
def Obligations.ResultsDependOnlyOnOperands : Prop :=
  ∀ (i : Instr) (s t : State), accepted s = true → accepted t = true → sameInputs s t →
    sameOutcome (exec i s) (exec i t)

/-- Every step keeps the invariant: canonical operand memory inside its window (R42), parameters in range (R5), the values
of acceptance while a command runs (R69), errors and results excluding each other (R30, R34, R176), held accesses (R48). -/
def Obligations.StepKeepsInvariant : Prop :=
  ∀ s t : State, Inv s → step s = .next t → Inv t

/-- R40, R27: hard reset has the invariant for all parameters R5 admits, and its registers read as the rule says. -/
def Obligations.ResetStateIsAsSpecified : Prop :=
  Inv State.reset ∧
  ∀ nSlots maxCount : Nat, 64 ≤ nSlots → nSlots ≤ 65536 → 1 ≤ maxCount → maxCount < 2 ^ 32 →
    let s := State.resetWith (paramsWord nSlots maxCount)
    Inv s ∧ csrRead s 0x000 = 0x424C533132333831 ∧ s.nSlots = nSlots ∧ s.maxCount = maxCount ∧
      (∀ offset, offset ≠ 0x000 → offset ≠ 0x008 → csrRead s offset = 0) ∧
      irq s = false ∧ s.busy = false ∧ ∀ n, s.slot n = none

/-- R185: an accepted command completes, or is reset away, after finitely many steps: at most one more than the moves its
schedule still holds. -/
def Obligations.BusyBlockBecomesIdle : Prop :=
  ∀ s : State, s.busy = true →
    ∃ k, k ≤ s.sched.length + 1 ∧
      ((∃ t, core.run k s = .next t ∧ State.busy t = false) ∨ ∃ n, core.run k s = .fault (.unwrittenSlot n))

/-! ## The checks of a command -/

/-- R67: a list command with COUNT above MAX_COUNT is SHAPE; an empty list is legal and has its defined result; other
commands ignore COUNT. -/
def Obligations.ListCountIsChecked : Prop :=
  (∀ (i : Instr) (s : State), isListCommand i = true → s.maxCount < s.countLatch.toNat →
    failsWith i s ⟨.shape, .none, 0, s.countLatch⟩) ∧
  (∀ (i : Instr) (s : State) (n : BitVec 32), isListCommand i = false → exec i { s with countLatch := n } = exec i s) ∧
  (∀ (s : State) (d a b : SlotAddr), s.countLatch = 0 →
    (extentsOk s (.g1Affb d a) = true → completes (.g1Affb d a) s {}) ∧
    (extentsOk s (.g2Affb d a) = true → completes (.g2Affb d a) s {}) ∧
    (extentsOk s (.g1Msm d a b) = true → completes (.g1Msm d a b) s (writing layoutG1 d ⟨Fp.zero, Fp.one, Fp.zero⟩)) ∧
    (extentsOk s (.g2Msm d a b) = true →
      completes (.g2Msm d a b) s (writing layoutG2 d ⟨Fp2.zero, Fp2.one, Fp2.zero⟩)) ∧
    (extentsOk s (.miller d a b) = true → completes (.miller d a b) s (writing layoutFp12 d Fp12.one)) ∧
    (extentsOk s (.pair d a b) = true → completes (.pair d a b) s (writing layoutFp12 d Fp12.one)) ∧
    (extentsOk s (.pcheck a b) = true → completes (.pcheck a b) s (flagging true)))

/-- R68: the first operand, in the order D, A, B, that passes slot N_SLOTS − 1 is ADDRESS_RANGE with that operand and its
base; an empty list passes whenever its base is at most N_SLOTS. -/
def Obligations.OperandPastTheEndIsAddressRange : Prop :=
  (∀ (i : Instr) (s : State) (pre post : List Use) (u : Use), WellFormed i = true → shapeOk s i = true →
    usesOf s i = pre ++ u :: post → (∀ x ∈ pre, x.base.toNat + x.extent ≤ s.nSlots) →
    s.nSlots < u.base.toNat + u.extent → failsWith i s ⟨.addressRange, u.operand, u.base, 0⟩) ∧
  (∀ (i : Instr) (s t : State) (u : Use), WellFormed i = true → u ∈ usesOf s i → u.extent = 0 →
    u.base.toNat ≤ s.nSlots → exec i s = .next t → t.errCode = .addressRange → t.errInfo.opnd ≠ u.operand)

/-- R175 check 5, R173: the first source slot, A's in ascending order and then B's, that does not pass its check is
OUT_OF_FIELD with the operand, the slot and the list element; every later slot and every later check is left out (R176).
That a later slot nothing has written does not matter is the model's reading (log 12). -/
def Obligations.FirstIllegalSourceIsOutOfField : Prop :=
  ∀ (i : Instr) (s : State) (pre post : List Source) (x : Source) (w : SlotWord), WellFormed i = true →
    shapeOk s i = true → extentsOk s i = true → sourcesOf s i = pre ++ x :: post → pre.all (Source.ok s) = true →
    s.slot x.slot = some w → x.kind.legal w = false →
    failsWith i s ⟨.outOfField, x.operand, BitVec.ofNat 16 x.slot, BitVec.ofNat 32 x.index⟩

/-- D37, R183: a command that comes to a source slot nothing has written, all earlier ones being legal, faults there. That
the earlier ones are checked first is the model's reading (log 12). -/
def Obligations.FirstUnwrittenSourceFaults : Prop :=
  ∀ (i : Instr) (s : State) (pre post : List Source) (x : Source), WellFormed i = true → shapeOk s i = true →
    extentsOk s i = true → sourcesOf s i = pre ++ x :: post → pre.all (Source.ok s) = true → s.slot x.slot = none →
    exec i s = .fault (.unwrittenSlot x.slot)

/-- R174: a command without a check of its own succeeds on every legal operand, and fails by codes 1 to 5 only; so does
FROMWNAF, whose own error is code 5. Codes 8 and 9 come from CHECK alone; ONCURVE and INSUB give membership in FLAG. -/
def Obligations.TotalCommandsFailOnlyByCodes1To5 : Prop :=
  (∀ (i : Instr) (s : State), WellFormed i = true → hasOwnCheck i = false → operandsOk s i = true →
    ∃ e, completes i s e) ∧
  (∀ (i : Instr) (s t : State), hasOwnCheck i = false ∨ (∃ d a, i = .fromwnaf d a) → accepted s = true →
    exec i s = .next t → t.errCode.number.toNat ≤ 5) ∧
  (∀ (i : Instr) (s t : State), exec i s = .next t → t.errCode.number.toNat = 8 ∨ t.errCode.number.toNat = 9 →
    ∃ a, i = .g1Check a ∨ i = .g2Check a) ∧
  (∀ (s : State) (a : SlotAddr) (P : Point Fp), holds layoutG1 s a P = true →
    completes (.g1Oncurve a) s (flagging (curveG1.onCurve P)) ∧
    completes (.g1Insub a) s (flagging (curveG1.inSubgroup P))) ∧
  (∀ (s : State) (a : SlotAddr) (P : Point Fp2), holds layoutG2 s a P = true →
    completes (.g2Oncurve a) s (flagging (curveG2.onCurve P)) ∧
    completes (.g2Insub a) s (flagging (curveG2.inSubgroup P)))

/-! ## Control commands -/

/-- R169: NOP completes, clears the status fields of acceptance and nothing else; its word has no other bit set. -/
def Obligations.NopOnlyCompletes : Prop :=
  (∀ s : State, completes .nop s {}) ∧
  (∀ s t : State, accepted s = true → exec .nop s = .next t →
    t.om = s.om ∧ t.stickyErr = s.stickyErr ∧ t.flag = false ∧ t.result = 0 ∧ t.errCode = .none ∧
      (s.stickyErr = false → statusWord t = 0x2)) ∧
  (∀ w : Word, opcOf w = 0 → w ≠ 0 → ∃ f, decode w = .error (.reservedField f)) ∧ encode .nop = 0

/-- R170: COPY moves n = AUX + 1 raw slots, of any contents, as a memmove; it checks D's extent, then A's, and nothing
else. -/
def Obligations.CopyMovesRawSlots : Prop :=
  (∀ (s : State) (d a : SlotAddr) (k : BitVec 8) (ws : List SlotWord), ws.length = k.toNat + 1 →
    fits s d (k.toNat + 1) = true → fits s a (k.toNat + 1) = true → slotsHold s a.toNat ws = true →
    completes (.copy d a k) s { writes := place d.toNat ws } ∧
    ∃ t, exec (.copy d a k) s = .next t ∧ t.flag = false ∧
      (∀ j, j < k.toNat + 1 → t.slot (d.toNat + j) = s.slot (a.toNat + j)) ∧
      (s.om.wf → d = a → t.om = s.om)) ∧
  (∀ (s : State) (d a : SlotAddr) (k : BitVec 8), s.nSlots < d.toNat + (k.toNat + 1) →
    failsWith (.copy d a k) s ⟨.addressRange, .d, d, 0⟩) ∧
  (∀ (s : State) (d a : SlotAddr) (k : BitVec 8), fits s d (k.toNat + 1) = true →
    s.nSlots < a.toNat + (k.toNat + 1) → failsWith (.copy d a k) s ⟨.addressRange, .a, a, 0⟩) ∧
  (∀ w : Word, opcOf w = 0x01 → bOf w ≠ 0 → decode w = .error (.reservedField .b)) ∧
  decode 0x00000000000A0201 = .ok (.copy 10 0 2)

/-- R171, R38: LDC writes entry i of the constants ROM, whose contents are given here from R7, R9, R11 and R12; a reserved
index is RESERVED_FIELD before the extent is checked. -/
def Obligations.LdcLoadsTheConstants : Prop :=
  let m : Nat → SlotWord := fun n => BitVec.ofNat 384 (n * 2 ^ 384 % Config.p)
  let one : SlotWord :=
    0x15f65ec3fa80e4935c071a97a256ec6d77ce5853705257455f48985753c758baebf4000bc40c0002760900000002fffd
  let entries : List (List SlotWord) :=
    [[0], [one], [m Config.g1GenX, m Config.g1GenY, one],
      [m Config.g2GenX0, m Config.g2GenX1, m Config.g2GenY0, m Config.g2GenY1, one, 0], [0, one, 0],
      [0, 0, one, 0, 0, 0], [one, 0, 0, 0, 0, 0, 0, 0, 0, 0, 0, 0], [m 4], [m 4, m 4], [BitVec.ofNat 384 Config.r]]
  (∀ (s : State) (d : SlotAddr) (i : BitVec 8) (ws : List SlotWord), entries[i.toNat]? = some ws →
    fits s d ws.length = true → completes (.ldc d i) s { writes := place d.toNat ws }) ∧
  (∀ (s : State) (d : SlotAddr) (i : BitVec 8), 10 ≤ i.toNat →
    failsWith (.ldc d i) s ⟨.reservedField, .none, 0, 0⟩) ∧
  (∀ (s : State) (d : SlotAddr) (i : BitVec 8) (ws : List SlotWord), entries[i.toNat]? = some ws →
    s.nSlots < d.toNat + ws.length → failsWith (.ldc d i) s ⟨.addressRange, .d, d, 0⟩) ∧
  (∀ w : Word, opcOf w = 0x02 → aOf w ≠ 0 ∨ bOf w ≠ 0 → ∃ f, decode w = .error (.reservedField f)) ∧
  decode 0x0000000000000102 = .ok (.ldc 0 1)

/-! ## The Fp unit -/

/-- R77, R80: the multiplier is x·y·R^(−1) mod p with a result below p, and the adder works in [0, p); on Montgomery words
they are the field's operations. -/
def Obligations.MultiplierAndAdderComputeModP : Prop :=
  (∀ x y : Nat, x < Config.p → y < Config.p →
    montMul x y < Config.p ∧ montMul x y * 2 ^ 384 % Config.p = x * y % Config.p ∧
    addMod x y < Config.p ∧ addMod x y = (if x + y ≥ Config.p then x + y - Config.p else x + y) ∧
    subMod x y < Config.p ∧ ((subMod x y : Nat) : Int) = (if x < y then (x : Int) - y + Config.p else x - y)) ∧
  (∀ a b : Fp, montMul (mont a).val (mont b).val = (mont (a * b)).val ∧
    addMod (mont a).val (mont b).val = (mont (a + b)).val ∧ subMod (mont a).val (mont b).val = (mont (a - b)).val)

/-- R78: the word-serial CIOS datapath computes the Montgomery product of every pair of canonical words. -/
def Obligations.CiosIsMontMul : Prop :=
  ∀ x y : Nat, x < Config.p → y < Config.p → cios x y = montMul x y ∧ cios x y < Config.p

/-- R81, R82, R85 on values: FP.ADD, SUB and MUL write the Montgomery word of the sum, difference and product. -/
def Obligations.FpBinaryCommandsComplete : Prop :=
  ∀ (s : State) (d a b : SlotAddr) (x y : Fp), fits s d 1 = true → holds layoutFp s a x = true →
    holds layoutFp s b y = true →
    completes (.fpAdd d a b) s (writing layoutFp d (x + y)) ∧
    completes (.fpSub d a b) s (writing layoutFp d (x - y)) ∧
    completes (.fpMul d a b) s (writing layoutFp d (x * y))

/-- R83, R84, R86, R87, R88: FP.DBL, NEG and SQR on values, and the two conversions between a plain integer below p and its
Montgomery word. -/
def Obligations.FpUnaryCommandsComplete : Prop :=
  ∀ (s : State) (d a : SlotAddr) (x : Fp), fits s d 1 = true →
    (holds layoutFp s a x = true →
      completes (.fpDbl d a) s (writing layoutFp d (x + x)) ∧
      completes (.fpNeg d a) s (writing layoutFp d (Fp.zero - x)) ∧
      completes (.fpSqr d a) s (writing layoutFp d (x * x)) ∧
      completes (.fpFrommont d a) s { writes := place d.toNat [BitVec.ofNat 384 x.val] }) ∧
    (holds layoutWord s a x = true →
      completes (.fpTomont d a) s { writes := place d.toNat [BitVec.ofNat 384 (x.val * 2 ^ 384 % Config.p)] })

/-- R89: FP.INV runs the almost-inverse on the word and completes for every canonical input, with its word and FLAG. -/
def Obligations.FpInvCompletesByAlmostInverse : Prop :=
  ∀ (s : State) (d a : SlotAddr) (w : Fp), fits s d 1 = true → holds layoutWord s a w = true →
    completes (.fpInv d a) s
      { writes := place d.toNat [BitVec.ofNat 384 (kaliskiInv w.val).1], flag := (kaliskiInv w.val).2 }

/-- R89, R97, R6: the almost-inverse is the field inverse: FP.INV writes the one y with x·y = 1 and FLAG 1, and 0 with FLAG
0 for x = 0. -/
def Obligations.FpInvIsTheFieldInverse : Prop :=
  ∀ (s : State) (d a : SlotAddr) (x : Fp), fits s d 1 = true → holds layoutFp s a x = true →
    ∃ y : Fp, (x = Fp.zero → y = Fp.zero) ∧ (x ≠ Fp.zero → x * y = Fp.one) ∧
      completes (.fpInv d a) s { writing layoutFp d y with flag := decide (x ≠ Fp.zero) }

/-- R90: FP.SQRT writes x^((p+1)/4) where its square is x, and is NONSQUARE at A otherwise, with no write. -/
def Obligations.FpSqrtWritesItsRootOrFails : Prop :=
  ∀ (s : State) (d a : SlotAddr) (x : Fp), fits s d 1 = true → holds layoutFp s a x = true →
    let c := x.pow ((Config.p + 1) / 4)
    (c * c = x → completes (.fpSqrt d a) s { writing layoutFp d c with flag := true }) ∧
    (c * c ≠ x → failsWith (.fpSqrt d a) s ⟨.nonsquare, .a, a, 0⟩)

/-- R90, R91, R94: x^((p+1)/4) is a root exactly of the squares, so SQRT succeeds exactly on them; for x ≠ 0 the test of
ISQNR says that x is no square, and it says so of 0 too (D34). -/
def Obligations.SqrtAndIsqnrDecideSquares : Prop :=
  ∀ x : Fp,
    ((x.pow ((Config.p + 1) / 4)) * (x.pow ((Config.p + 1) / 4)) = x ↔ ∃ c : Fp, c * c = x) ∧
    (x ≠ Fp.zero → (x.pow ((Config.p - 1) / 2) ≠ Fp.one ↔ ¬∃ c : Fp, c * c = x)) ∧
    (x = Fp.zero → x.pow ((Config.p - 1) / 2) ≠ Fp.one)

/-- R91, R92, R93: the Fp tests give FLAG and write nothing. -/
def Obligations.FpTestsSetFlag : Prop :=
  ∀ (s : State) (a b : SlotAddr) (x y : Fp), holds layoutFp s a x = true →
    completes (.fpIsqnr a) s (flagging (decide (x.pow ((Config.p - 1) / 2) ≠ Fp.one))) ∧
    completes (.fpIszero a) s (flagging (decide (x = Fp.zero))) ∧
    (holds layoutFp s b y = true → completes (.fpEq a b) s (flagging (decide (x = y))))

/-- R94: the laws of the Fp unit, on canonical words. -/
def Obligations.FpWordLaws : Prop :=
  let one := (mont Fp.one).val
  ∀ x y z : Nat, x < Config.p → y < Config.p → z < Config.p →
    addMod x y = addMod y x ∧ addMod (addMod x y) z = addMod x (addMod y z) ∧
    montMul x y = montMul y x ∧ montMul (montMul x y) z = montMul x (montMul y z) ∧
    montMul x (addMod y z) = addMod (montMul x y) (montMul x z) ∧
    addMod x 0 = x ∧ montMul x one = x ∧ montMul x 0 = 0 ∧ subMod x x = 0 ∧ subMod 0 (subMod 0 x) = x ∧
    (x ≠ 0 → montMul x (kaliskiInv x).1 = one) ∧ (kaliskiInv 0).1 = 0 ∧
    montMul x Config.rsq = x * 2 ^ 384 % Config.p ∧ montMul (montMul x Config.rsq) 1 = x

/-! ## The tower unit -/

/-- R99 to R104, R106, R107 with the products of R96: the Fp2 commands but INV and EQ. -/
def Obligations.Fp2CommandsComplete : Prop :=
  ∀ (s : State) (d a b : SlotAddr) (x y : Fp2) (k : BitVec 8), fits s d 2 = true → holds layoutFp2 s a x = true →
    completes (.fp2Dbl d a) s (writing layoutFp2 d ⟨x.c0 + x.c0, x.c1 + x.c1⟩) ∧
    completes (.fp2Neg d a) s (writing layoutFp2 d ⟨Fp.zero - x.c0, Fp.zero - x.c1⟩) ∧
    completes (.fp2Sqr d a) s (writing layoutFp2 d ⟨x.c0 * x.c0 - x.c1 * x.c1, x.c0 * x.c1 + x.c1 * x.c0⟩) ∧
    completes (.fp2Conj d a) s (writing layoutFp2 d ⟨x.c0, Fp.zero - x.c1⟩) ∧
    completes (.fp2Frob d a k) s
      (writing layoutFp2 d (if k.toNat % 2 = 0 then x else ⟨x.c0, Fp.zero - x.c1⟩)) ∧
    (holds layoutFp2 s b y = true →
      completes (.fp2Add d a b) s (writing layoutFp2 d ⟨x.c0 + y.c0, x.c1 + y.c1⟩) ∧
      completes (.fp2Sub d a b) s (writing layoutFp2 d ⟨x.c0 - y.c0, x.c1 - y.c1⟩) ∧
      completes (.fp2Mul d a b) s
        (writing layoutFp2 d ⟨x.c0 * y.c0 - x.c1 * y.c1, x.c0 * y.c1 + x.c1 * y.c0⟩))

/-- R97, R105, R108, R115, R119, R126, R132: the tower INV commands write the inverse, 0 for 0, with FLAG = (x ≠ 0); the EQ
commands compare all words. -/
def Obligations.TowerInvAndEqComplete : Prop :=
  (∀ (s : State) (d a b : SlotAddr) (x y : Fp2), holds layoutFp2 s a x = true →
    (fits s d 2 = true →
      completes (.fp2Inv d a) s { writing layoutFp2 d x.inv with flag := decide (x ≠ Fp2.zero) }) ∧
    (holds layoutFp2 s b y = true → completes (.fp2Eq a b) s (flagging (decide (x = y))))) ∧
  (∀ (s : State) (d a b : SlotAddr) (x y : Fp6), holds layoutFp6 s a x = true →
    (fits s d 6 = true →
      completes (.fp6Inv d a) s { writing layoutFp6 d x.inv with flag := decide (x ≠ Fp6.zero) }) ∧
    (holds layoutFp6 s b y = true → completes (.fp6Eq a b) s (flagging (decide (x = y))))) ∧
  (∀ (s : State) (d a b : SlotAddr) (x y : Fp12), holds layoutFp12 s a x = true →
    (fits s d 12 = true →
      completes (.fp12Inv d a) s { writing layoutFp12 d x.inv with flag := decide (x ≠ Fp12.zero) }) ∧
    (holds layoutFp12 s b y = true → completes (.fp12Eq a b) s (flagging (decide (x = y)))))

/-- R109 to R114, R116 to R118 with the product of R96: the Fp6 commands but INV and EQ. -/
def Obligations.Fp6CommandsComplete : Prop :=
  let mul : Fp6 → Fp6 → Fp6 := fun x y =>
    ⟨(x.c0.mul y.c0).add ((x.c1.mul y.c2).add (x.c2.mul y.c1)).mulXi,
     ((x.c0.mul y.c1).add (x.c1.mul y.c0)).add (x.c2.mul y.c2).mulXi,
     ((x.c0.mul y.c2).add (x.c1.mul y.c1)).add (x.c2.mul y.c0)⟩
  ∀ (s : State) (d a b : SlotAddr) (x y : Fp6) (b0 b1 : Fp2) (k : BitVec 8), fits s d 6 = true →
    holds layoutFp6 s a x = true →
    completes (.fp6Dbl d a) s (writing layoutFp6 d ⟨x.c0.add x.c0, x.c1.add x.c1, x.c2.add x.c2⟩) ∧
    completes (.fp6Neg d a) s
      (writing layoutFp6 d ⟨Fp2.zero.sub x.c0, Fp2.zero.sub x.c1, Fp2.zero.sub x.c2⟩) ∧
    completes (.fp6Sqr d a) s (writing layoutFp6 d (mul x x)) ∧
    completes (.fp6Frob d a k) s
      (writing layoutFp6 d
        ⟨x.c0.frob (k.toNat % 6), (x.c1.frob (k.toNat % 6)).mul (frobGamma1 (k.toNat % 6)),
         (x.c2.frob (k.toNat % 6)).mul (frobGamma2 (k.toNat % 6))⟩) ∧
    (holds layoutFp6 s b y = true →
      completes (.fp6Add d a b) s (writing layoutFp6 d ⟨x.c0.add y.c0, x.c1.add y.c1, x.c2.add y.c2⟩) ∧
      completes (.fp6Sub d a b) s (writing layoutFp6 d ⟨x.c0.sub y.c0, x.c1.sub y.c1, x.c2.sub y.c2⟩) ∧
      completes (.fp6Mul d a b) s (writing layoutFp6 d (mul x y))) ∧
    (holds layoutSparse2 s b (b0, b1) = true →
      completes (.fp6Mulby01 d a b) s (writing layoutFp6 d (mul x ⟨b0, b1, Fp2.zero⟩))) ∧
    (holds layoutFp2 s b b1 = true →
      completes (.fp6Mulby1 d a b) s (writing layoutFp6 d (mul x ⟨Fp2.zero, b1, Fp2.zero⟩)))

/-- R120 to R125, R127 to R131 with the product of R96: the Fp12 commands but INV and EQ. CSQR is the formula of R131,
its six coefficients written out, on every input. -/
def Obligations.Fp12CommandsComplete : Prop :=
  let mul : Fp12 → Fp12 → Fp12 := fun x y =>
    ⟨(x.c0.mul y.c0).add (x.c1.mul y.c1).mulV, (x.c0.mul y.c1).add (x.c1.mul y.c0)⟩
  let sq0 : Fp2 → Fp2 → Fp2 := fun m n => (m.mul m).add (n.mul n).mulXi
  let sq1 : Fp2 → Fp2 → Fp2 := fun m n => (((m.add n).mul (m.add n)).sub (m.mul m)).sub (n.mul n)
  let minus : Fp2 → Fp2 → Fp2 := fun t z => ((t.sub z).add (t.sub z)).add t
  let plus : Fp2 → Fp2 → Fp2 := fun t z => ((t.add z).add (t.add z)).add t
  ∀ (s : State) (d a b : SlotAddr) (x y : Fp12) (b0 b1 b3 b4 : Fp2) (k : BitVec 8), fits s d 12 = true →
    holds layoutFp12 s a x = true →
    completes (.fp12Dbl d a) s (writing layoutFp12 d ⟨x.c0.add x.c0, x.c1.add x.c1⟩) ∧
    completes (.fp12Neg d a) s (writing layoutFp12 d ⟨Fp6.zero.sub x.c0, Fp6.zero.sub x.c1⟩) ∧
    completes (.fp12Sqr d a) s (writing layoutFp12 d (mul x x)) ∧
    completes (.fp12Conj d a) s (writing layoutFp12 d ⟨x.c0, Fp6.zero.sub x.c1⟩) ∧
    completes (.fp12Frob d a k) s
      (writing layoutFp12 d
        ⟨x.c0.frob (k.toNat % 12), (x.c1.frob (k.toNat % 12)).scale (frobGammaW (k.toNat % 12))⟩) ∧
    completes (.fp12Csqr d a) s
      (writing layoutFp12 d
        ⟨⟨minus (sq0 x.c0.c0 x.c1.c1) x.c0.c0, minus (sq0 x.c1.c0 x.c0.c2) x.c0.c1, minus (sq0 x.c0.c1 x.c1.c2) x.c0.c2⟩,
         ⟨plus (sq1 x.c0.c1 x.c1.c2).mulXi x.c1.c0, plus (sq1 x.c0.c0 x.c1.c1) x.c1.c1,
          plus (sq1 x.c1.c0 x.c0.c2) x.c1.c2⟩⟩) ∧
    (holds layoutFp12 s b y = true →
      completes (.fp12Add d a b) s (writing layoutFp12 d ⟨x.c0.add y.c0, x.c1.add y.c1⟩) ∧
      completes (.fp12Sub d a b) s (writing layoutFp12 d ⟨x.c0.sub y.c0, x.c1.sub y.c1⟩) ∧
      completes (.fp12Mul d a b) s (writing layoutFp12 d (mul x y))) ∧
    (holds layoutSparse3 s b (b0, b1, b4) = true →
      completes (.fp12Mulby014 d a b) s
        (writing layoutFp12 d (mul x ⟨⟨b0, b1, Fp2.zero⟩, ⟨Fp2.zero, b4, Fp2.zero⟩⟩))) ∧
    (holds layoutSparse3 s b (b0, b3, b4) = true →
      completes (.fp12Mulby034 d a b) s
        (writing layoutFp12 d (mul x ⟨⟨b0, Fp2.zero, Fp2.zero⟩, ⟨b3, b4, Fp2.zero⟩⟩)))

/-- R97 at every level: a non-zero element times what INV writes for it is one, and 0 maps to 0. -/
def Obligations.TowerInversesMultiplyToOne : Prop :=
  (∀ x : Fp2, x ≠ Fp2.zero → x.mul x.inv = Fp2.one) ∧ Fp2.zero.inv = Fp2.zero ∧
  (∀ x : Fp6, x ≠ Fp6.zero → x.mul x.inv = Fp6.one) ∧ Fp6.zero.inv = Fp6.zero ∧
  (∀ x : Fp12, x ≠ Fp12.zero → x.mul x.inv = Fp12.one) ∧ Fp12.zero.inv = Fp12.zero

/-- R98, R107, R116, R128: with the tables of R98, FROB with power k is x ↦ x^(p^k) at every level. -/
def Obligations.FrobeniusIsThePthPower : Prop :=
  (∀ (x : Fp2) (k : Nat), x.frob k = (x.mul)^[Config.p ^ k] Fp2.one) ∧
  (∀ (x : Fp6) (k : Nat), x.frob k = (x.mul)^[Config.p ^ k] Fp6.one) ∧
  (∀ (x : Fp12) (k : Nat), x.frob k = (x.mul)^[Config.p ^ k] Fp12.one)

/-! ## The curve unit -/

/-- R139, R141 to R145, R151: the group commands that write one point, for G1 and G2. -/
def Obligations.GroupCommandsComplete : Prop :=
  (∀ (s : State) (d a b : SlotAddr) (P Q : Point Fp) (k : Nat), fits s d 3 = true → holds layoutG1 s a P = true →
    completes (.g1Dbl d a) s (writing layoutG1 d (curveG1.dblF P)) ∧
    completes (.g1Neg d a) s (writing layoutG1 d ⟨P.x, Fp.zero - P.y, P.z⟩) ∧
    completes (.g1Affine d a) s (writing layoutG1 d (curveG1.affine P)) ∧
    (holds layoutG1 s b Q = true →
      completes (.g1Add d a b) s (writing layoutG1 d (curveG1.addF P Q)) ∧
      completes (.g1Sub d a b) s (writing layoutG1 d (curveG1.addF P ⟨Q.x, Fp.zero - Q.y, Q.z⟩))) ∧
    (k < 2 ^ 256 → holds layoutSC s b k = true →
      completes (.g1Mul d a b) s (writing layoutG1 d (curveG1.mulF P k)) ∧
      (k < Config.r → completes (.g1Mulct d a b) s (writing layoutG1 d (curveG1.mulCtF P k))))) ∧
  (∀ (s : State) (d a b : SlotAddr) (P Q : Point Fp2) (k : Nat), fits s d 6 = true → holds layoutG2 s a P = true →
    completes (.g2Dbl d a) s (writing layoutG2 d (curveG2.dblF P)) ∧
    completes (.g2Neg d a) s (writing layoutG2 d ⟨P.x, Fp2.zero.sub P.y, P.z⟩) ∧
    completes (.g2Affine d a) s (writing layoutG2 d (curveG2.affine P)) ∧
    (holds layoutG2 s b Q = true →
      completes (.g2Add d a b) s (writing layoutG2 d (curveG2.addF P Q)) ∧
      completes (.g2Sub d a b) s (writing layoutG2 d (curveG2.addF P ⟨Q.x, Fp2.zero.sub Q.y, Q.z⟩))) ∧
    (k < 2 ^ 256 → holds layoutSC s b k = true →
      completes (.g2Mul d a b) s (writing layoutG2 d (curveG2.mulF P k)) ∧
      (k < Config.r → completes (.g2Mulct d a b) s (writing layoutG2 d (curveG2.mulCtF P k)))))

/-- R140: ADDM with an affine second point or the identity; any other second point is NOT_AFFINE at its first Z slot. -/
def Obligations.MixedAdditionNeedsAnAffinePoint : Prop :=
  (∀ (s : State) (d a b : SlotAddr) (P Q : Point Fp), fits s d 3 = true → holds layoutG1 s a P = true →
    holds layoutG1 s b Q = true →
    (Q.z = Fp.zero ∨ Q.z = Fp.one → completes (.g1Addm d a b) s (writing layoutG1 d (curveG1.maddF P Q))) ∧
    (Q.z ≠ Fp.zero → Q.z ≠ Fp.one → failsWith (.g1Addm d a b) s ⟨.notAffine, .b, b + 2, 0⟩)) ∧
  (∀ (s : State) (d a b : SlotAddr) (P Q : Point Fp2), fits s d 6 = true → holds layoutG2 s a P = true →
    holds layoutG2 s b Q = true →
    (Q.z = Fp2.zero ∨ Q.z = Fp2.one → completes (.g2Addm d a b) s (writing layoutG2 d (curveG2.maddF P Q))) ∧
    (Q.z ≠ Fp2.zero → Q.z ≠ Fp2.one → failsWith (.g2Addm d a b) s ⟨.notAffine, .b, b + 4, 0⟩))

/-- R135, R146 to R149, R153: the group predicates, with the equations written out. -/
def Obligations.GroupPredicatesSetFlag : Prop :=
  (∀ (s : State) (a b : SlotAddr) (P Q : Point Fp), holds layoutG1 s a P = true →
    let z2 := P.z * P.z
    completes (.g1Iszero a) s (flagging (decide (P.z = Fp.zero))) ∧
    completes (.g1Isaffine a) s (flagging (decide (P.z = Fp.one))) ∧
    completes (.g1Oncurve a) s
      (flagging (decide (P.z = Fp.zero ∨ P.y * P.y = P.x * P.x * P.x + Fp.ofNat 4 * (z2 * z2 * z2)))) ∧
    completes (.g1Insub a) s (flagging (decide ((curveG1.mulF P Config.r).z = Fp.zero))) ∧
    (holds layoutG1 s b Q = true →
      completes (.g1Eq a b) s
        (flagging (decide ((P.z = Fp.zero ∧ Q.z = Fp.zero) ∨
          (P.z ≠ Fp.zero ∧ Q.z ≠ Fp.zero ∧ P.x * (Q.z * Q.z) = Q.x * (P.z * P.z) ∧
            P.y * (Q.z * Q.z * Q.z) = Q.y * (P.z * P.z * P.z))))))) ∧
  (∀ (s : State) (a b : SlotAddr) (P Q : Point Fp2), holds layoutG2 s a P = true →
    let z2 := P.z.mul P.z
    let cube : Fp2 → Fp2 := fun x => (x.mul x).mul x
    completes (.g2Iszero a) s (flagging (decide (P.z = Fp2.zero))) ∧
    completes (.g2Isaffine a) s (flagging (decide (P.z = Fp2.one))) ∧
    completes (.g2Oncurve a) s
      (flagging (decide (P.z = Fp2.zero ∨
        P.y.mul P.y = (cube P.x).add (Fp2.mul ⟨Fp.ofNat 4, Fp.ofNat 4⟩ (cube z2))))) ∧
    completes (.g2Insub a) s (flagging (decide ((curveG2.mulF P Config.r).z = Fp2.zero))) ∧
    (holds layoutG2 s b Q = true →
      completes (.g2Eq a b) s
        (flagging (decide ((P.z = Fp2.zero ∧ Q.z = Fp2.zero) ∨
          (P.z ≠ Fp2.zero ∧ Q.z ≠ Fp2.zero ∧ P.x.mul (Q.z.mul Q.z) = Q.x.mul (P.z.mul P.z) ∧
            P.y.mul (cube Q.z) = Q.y.mul (cube P.z)))))))

/-- R150: CHECK passes with FLAG 1, or is OFF_CURVE, or, on the curve, WRONG_SUBGROUP. -/
def Obligations.CheckReportsCurveThenSubgroup : Prop :=
  (∀ (s : State) (a : SlotAddr) (P : Point Fp), holds layoutG1 s a P = true →
    (curveG1.onCurve P = true → curveG1.inSubgroup P = true → completes (.g1Check a) s (flagging true)) ∧
    (curveG1.onCurve P = false → failsWith (.g1Check a) s ⟨.offCurve, .a, a, 0⟩) ∧
    (curveG1.onCurve P = true → curveG1.inSubgroup P = false →
      failsWith (.g1Check a) s ⟨.wrongSubgroup, .a, a, 0⟩)) ∧
  (∀ (s : State) (a : SlotAddr) (P : Point Fp2), holds layoutG2 s a P = true →
    (curveG2.onCurve P = true → curveG2.inSubgroup P = true → completes (.g2Check a) s (flagging true)) ∧
    (curveG2.onCurve P = false → failsWith (.g2Check a) s ⟨.offCurve, .a, a, 0⟩) ∧
    (curveG2.onCurve P = true → curveG2.inSubgroup P = false →
      failsWith (.g2Check a) s ⟨.wrongSubgroup, .a, a, 0⟩))

/-- R152, R168: AFFB writes AFFINE of every element in order, MSM the Pippenger sum of the listed points and scalars, for
lists as long as COUNT says and MAX_COUNT allows. -/
def Obligations.GroupListCommandsComplete : Prop :=
  (∀ (s : State) (d a b : SlotAddr) (Ps : List (Point Fp)) (ks : List Nat), s.countLatch.toNat = Ps.length →
    Ps.length ≤ s.maxCount → holds (layoutList Ps.length layoutG1) s a Ps = true →
    (fits s d (Ps.length * 3) = true →
      completes (.g1Affb d a) s (writing (layoutList Ps.length layoutG1) d (Ps.map curveG1.affine))) ∧
    (fits s d 3 = true → ks.length = Ps.length → (∀ k ∈ ks, k < Config.r) →
      holds (layoutList ks.length layoutSCr) s b ks = true →
      completes (.g1Msm d a b) s (writing layoutG1 d (curveG1.msm (Ps.zip ks))))) ∧
  (∀ (s : State) (d a b : SlotAddr) (Ps : List (Point Fp2)) (ks : List Nat), s.countLatch.toNat = Ps.length →
    Ps.length ≤ s.maxCount → holds (layoutList Ps.length layoutG2) s a Ps = true →
    (fits s d (Ps.length * 6) = true →
      completes (.g2Affb d a) s (writing (layoutList Ps.length layoutG2) d (Ps.map curveG2.affine))) ∧
    (fits s d 6 = true → ks.length = Ps.length → (∀ k ∈ ks, k < Config.r) →
      holds (layoutList ks.length layoutSCr) s b ks = true →
      completes (.g2Msm d a b) s (writing layoutG2 d (curveG2.msm (Ps.zip ks)))))

/-- R145, R138, R140: MULCT gives MUL's triple bit for bit for every scalar below the group order, and ADDM gives ADD's for
every affine second point, and for the identity unless both points are. -/
def Obligations.ConstantFormAndMixedFormAgree : Prop :=
  (∀ (P : Point Fp) (k : Nat), k < Config.r → curveG1.mulCtF P k = curveG1.mulF P k) ∧
  (∀ (P : Point Fp2) (k : Nat), k < Config.r → curveG2.mulCtF P k = curveG2.mulF P k) ∧
  (∀ P Q : Point Fp, Q.z = Fp.one ∨ (Q.z = Fp.zero ∧ P.z ≠ Fp.zero) → curveG1.maddF P Q = curveG1.addF P Q) ∧
  (∀ P Q : Point Fp2, Q.z = Fp2.one ∨ (Q.z = Fp2.zero ∧ P.z ≠ Fp2.zero) → curveG2.maddF P Q = curveG2.addF P Q)

/-- R148, R154: every point the group formulas compute from points on the curve is on the curve. -/
def Obligations.GroupFormulasStayOnTheCurve : Prop :=
  (∀ (P Q : Point Fp) (k : Nat), curveG1.onCurve P = true → curveG1.onCurve Q = true →
    curveG1.onCurve (curveG1.dblF P) = true ∧ curveG1.onCurve (curveG1.addF P Q) = true ∧
    curveG1.onCurve (curveG1.negPoint P) = true ∧ curveG1.onCurve (curveG1.mulF P k) = true) ∧
  (∀ (P Q : Point Fp2) (k : Nat), curveG2.onCurve P = true → curveG2.onCurve Q = true →
    curveG2.onCurve (curveG2.dblF P) = true ∧ curveG2.onCurve (curveG2.addF P Q) = true ∧
    curveG2.onCurve (curveG2.negPoint P) = true ∧ curveG2.onCurve (curveG2.mulF P k) = true)

/-- R18, R136, R137: in affine coordinates x = X/Z², y = Y/Z³ the formulas of G1 are the tangent and the chord: a slope l with
2·y·l = 3·x², or (x₂ − x₁)·l = y₂ − y₁, gives the result's coordinates. -/
def Obligations.JacobianFormulasAreTangentAndChord : Prop :=
  let jac : Fp → Fp → Fp → Point Fp := fun x y z => ⟨x * (z * z), y * (z * z * z), z⟩
  (∀ x y z l : Fp, z ≠ Fp.zero → (y + y) * l = x * x + x * x + x * x →
    let xr := l * l - x - x
    curveG1.dblF (jac x y z) = jac xr (l * (x - xr) - y) (curveG1.dblF (jac x y z)).z) ∧
  (∀ x₁ y₁ z₁ x₂ y₂ z₂ l : Fp, z₁ ≠ Fp.zero → z₂ ≠ Fp.zero → x₁ ≠ x₂ → (x₂ - x₁) * l = y₂ - y₁ →
    let xr := l * l - x₁ - x₂
    curveG1.addF (jac x₁ y₁ z₁) (jac x₂ y₂ z₂) =
      jac xr (l * (x₁ - xr) - y₁) (curveG1.addF (jac x₁ y₁ z₁) (jac x₂ y₂ z₂)).z)

/-- R151, R135: AFFINE gives Z = one and the same group element, and points that are equal as group elements, neither the
identity, have bitwise equal AFFINE outputs. -/
def Obligations.AffineFormIsUnique : Prop :=
  (∀ P : Point Fp, P.z ≠ Fp.zero → (curveG1.affine P).z = Fp.one ∧ curveG1.equal P (curveG1.affine P) = true) ∧
  (∀ P Q : Point Fp, P.z ≠ Fp.zero → Q.z ≠ Fp.zero → curveG1.equal P Q = true → curveG1.affine P = curveG1.affine Q) ∧
  (∀ P : Point Fp2, P.z ≠ Fp2.zero → (curveG2.affine P).z = Fp2.one ∧ curveG2.equal P (curveG2.affine P) = true) ∧
  (∀ P Q : Point Fp2, P.z ≠ Fp2.zero → Q.z ≠ Fp2.zero → curveG2.equal P Q = true → curveG2.affine P = curveG2.affine Q)

/-! ## The pairing engine -/

/-- R155, R160, R163, R164: MILLER, PAIR and PCHECK over lists as long as COUNT says and MAX_COUNT allows. -/
def Obligations.PairingListCommandsComplete : Prop :=
  ∀ (s : State) (d a b : SlotAddr) (Ps : List (Point Fp)) (Qs : List (Point Fp2)), s.countLatch.toNat = Ps.length →
    Qs.length = Ps.length → Ps.length ≤ s.maxCount → holds (layoutList Ps.length layoutG1) s a Ps = true →
    holds (layoutList Qs.length layoutG2) s b Qs = true →
    completes (.pcheck a b) s (flagging (decide (finalExp (miller Ps Qs) = Fp12.one))) ∧
    (fits s d 12 = true →
      completes (.miller d a b) s (writing layoutFp12 d (miller Ps Qs)) ∧
      completes (.pair d a b) s (writing layoutFp12 d (finalExp (miller Ps Qs))))

/-- R161, R162: FINALEXP and CEXP on every Fp12 operand; FINALEXP(0) = 0 and CEXP(1) = 1. -/
def Obligations.ExponentiationCommandsComplete : Prop :=
  (∀ (s : State) (d a : SlotAddr) (f : Fp12), fits s d 12 = true → holds layoutFp12 s a f = true →
    completes (.finalexp d a) s (writing layoutFp12 d (finalExp f)) ∧
    completes (.cexp d a) s (writing layoutFp12 d (cexp f))) ∧
  finalExp Fp12.zero = Fp12.zero ∧ cexp Fp12.one = Fp12.one

/-- R155, R156, R160: the Miller value of a list is the product of the Miller values of its parts, a pair with an identity
contributes 1, and a prepared pair has NLINE = 68 line triples. -/
def Obligations.MillerIsAProductOverPairs : Prop :=
  (∀ (Ps Ps' : List (Point Fp)) (Qs Qs' : List (Point Fp2)), Ps.length = Qs.length →
    miller (Ps ++ Ps') (Qs ++ Qs') = (miller Ps Qs).mul (miller Ps' Qs')) ∧
  (∀ (P : Point Fp) (Q : Point Fp2), P.z = Fp.zero ∨ Q.z = Fp2.zero → miller [P] [Q] = Fp12.one) ∧
  (∀ qx qy : Fp2, (lineCoefficients qx qy).length = 68)

/-! ## Scalars -/

/-- R165, R166, R54: WNAF writes the digit bytes of the recoding and its length; FROMWNAF writes Σ d_j·2^j where that is a
scalar, and is OUT_OF_FIELD at A otherwise. -/
def Obligations.ScalarCommandsComplete : Prop :=
  (∀ (s : State) (d a : SlotAddr) (w : BitVec 8) (k : Nat), 2 ≤ w.toNat → w.toNat ≤ 8 → k < 2 ^ 256 →
    fits s d 6 = true → holds layoutSC s a k = true →
    completes (.wnaf d a w) s
      { writes := place d.toNat (layoutWN.words (digitBytes (wnafDigitsOf w.toNat k))),
        result := BitVec.ofNat 64 (wnafDigitsOf w.toNat k).length }) ∧
  (∀ (s : State) (d a : SlotAddr) (bytes : List Byte), bytes.length = 288 → fits s d 1 = true →
    holds layoutWN s a bytes = true →
    (0 ≤ digitSum bytes → digitSum bytes < 2 ^ 256 →
      completes (.fromwnaf d a) s (writing layoutSC d (digitSum bytes).toNat)) ∧
    (digitSum bytes < 0 ∨ 2 ^ 256 ≤ digitSum bytes → failsWith (.fromwnaf d a) s ⟨.outOfField, .a, a, 0⟩))

/-- R165, R166: the recoding of every scalar at every width: its digits sum to the scalar, so FROMWNAF undoes WNAF; at most
257 of them; each is 0 or odd and below 2^(w−1) in magnitude, w − 1 zeros follow a non-zero one, the last is 1. -/
def Obligations.WnafRoundTrips : Prop :=
  ∀ w k : Nat, 2 ≤ w → w ≤ 8 → k < 2 ^ 256 →
    let ds := wnafDigitsOf w k
    digitSum (digitBytes ds) = (k : Int) ∧ ds.length ≤ 257 ∧ (k > 0 → ds.getLast? = some 1) ∧ (k = 0 → ds = []) ∧
    ∀ (j : Nat) (t : Int), ds[j]? = some t → t ≠ 0 →
      t % 2 = 1 ∧ -(2 ^ (w - 1) - 1) ≤ t ∧ t ≤ 2 ^ (w - 1) - 1 ∧
      ∀ m, 1 ≤ m → m ≤ w - 1 → ds.getD (j + m) 0 = 0

/-! ## The host port -/

/-- R25 to R36: what a read of a register offset returns. It has no side effect but the answer (R47), and it does not stall
(R48). -/
def Obligations.RegisterReads : Prop :=
  (∀ (s t : State) (offset : HostAddr), offset.toNat < 0x1000 → offset.toNat % 8 = 0 →
    PerformsNext s (.read offset 8) t →
    ∃ v : Word, step s = .next { t with answers := .data v :: t.answers } ∧
      (offset = 0x000 → v = 0x424C533132333831) ∧ (offset = 0x008 → v = s.params) ∧
      (offset = 0x010 → v.getLsbD 0 = s.irqEn ∧ v >>> 1 = 0) ∧
      (offset = 0x018 → v.getLsbD 0 = s.busy ∧ v.getLsbD 1 = s.done ∧ v.getLsbD 2 = s.flag ∧
        v.getLsbD 3 = decide (s.errCode ≠ .none) ∧ v.getLsbD 4 = s.stickyErr ∧ v >>> 5 = 0) ∧
      (offset = 0x020 → v.toNat = s.errCode.number.toNat) ∧
      (offset = 0x028 → v.extractLsb' 0 8 = s.errInfo.opc ∧ v.extractLsb' 8 2 = s.errInfo.opnd.code ∧
        v.extractLsb' 10 6 = 0 ∧ v.extractLsb' 16 16 = s.errInfo.slot ∧ v.extractLsb' 32 32 = s.errInfo.index) ∧
      (offset = 0x030 → v.toNat = s.count.toNat) ∧ (offset = 0x038 → v = s.result) ∧ (offset = 0x040 → v = s.cmd) ∧
      (0x048 ≤ offset.toNat → v = 0)) ∧
  (∀ (s : State) (offset : HostAddr), offset.toNat < 0x1000 → stalls s (.read offset 8) = false)

/-- R26 to R29, R31 to R34, R36, R37, R179: a register write but CMD and a soft reset. CTRL takes IRQ_EN and STATUS clears DONE
and STICKY_ERR where a 1 is written; COUNT takes 31:0; every other register ignores writes. Clearing DONE or IRQ_EN drops
the irq output. -/
def Obligations.RegisterWrites : Prop :=
  ∀ (s t : State) (offset : HostAddr) (v : Word), offset.toNat < 0x1000 → offset.toNat % 8 = 0 → offset ≠ 0x040 →
    PerformsNext s (.write offset 8 v) t →
    (offset = 0x010 → v.getLsbD 1 = false →
      step s = .next { t with irqEn := v.getLsbD 0, answers := .written :: t.answers }) ∧
    (offset = 0x018 →
      step s = .next { t with done := t.done && !v.getLsbD 1, stickyErr := t.stickyErr && !v.getLsbD 4,
                              answers := .written :: t.answers }) ∧
    (offset = 0x030 → step s = .next { t with count := v.extractLsb' 0 32, answers := .written :: t.answers }) ∧
    (offset ≠ 0x010 → offset ≠ 0x018 → offset ≠ 0x030 → step s = .next { t with answers := .written :: t.answers }) ∧
    (∀ u, step s = .next u → (offset = 0x018 ∧ v.getLsbD 1 = true ∨ offset = 0x010 ∧ v.getLsbD 0 = false) →
      irq u = false)

/-- R44, R45: limb l of slot n is at 0x100000 + 8·(6·n + l). A read returns its 64 bits; a write sets them and leaves every
other limb of operand memory as it was. A limb nothing has written faults on a read (D37). -/
def Obligations.OperandMemoryLimbs : Prop :=
  let at_ : Nat → Nat → Nat := fun n l => 0x100000 + 8 * (6 * n + l)
  ∀ (s t : State) (n l : Nat) (addr : HostAddr), paramsOk s = true → n < s.nSlots → l < 6 → addr.toNat = at_ n l →
    (PerformsNext s (.read addr 8) t →
      (∀ w, s.slot n = some w →
        step s = .next { t with answers := .data (w.extractLsb' (64 * l) 64) :: t.answers }) ∧
      (∀ v, Memory.readLimb s.om (at_ n l) = some v → step s = .next { t with answers := .data v :: t.answers }) ∧
      (Memory.readLimb s.om (at_ n l) = none → step s = .fault (.unwrittenSlot n))) ∧
    (∀ v : Word, PerformsNext s (.write addr 8 v) t →
      ∃ m, step s = .next { t with om := m, answers := .written :: t.answers } ∧
        Memory.readLimb m (at_ n l) = some v ∧
        ∀ n' l', l' < 6 → (n', l') ≠ (n, l) → Memory.readLimb m (at_ n' l') = Memory.readLimb s.om (at_ n' l'))

/-- R48: while a command runs, the accesses to the OM window and the writes of CMD and COUNT are held, in order, and nothing
else is; R182, R60: an idle block performs the oldest held access before the host's next one. -/
def Obligations.AccessesStallWhileBusy : Prop :=
  (∀ (s : State) (e : HostEvent) (rest : List HostEvent) (moves : List Agent), s.busy = true →
    s.sched = .host :: moves → s.host = e :: rest → stalls s e = true →
    step s = .next { s with sched := moves, host := rest, stalled := s.stalled ++ [e] }) ∧
  (∀ (s : State) (addr : HostAddr) (v : Word), paramsOk s = true → addr.toNat % 8 = 0 →
    let inWindow := decide (0x100000 ≤ addr.toNat) && decide (addr.toNat < 0x100000 + 48 * s.nSlots)
    stalls s (.read addr 8) = inWindow ∧
    stalls s (.write addr 8 v) = (inWindow || decide (addr = 0x030) || decide (addr = 0x040))) ∧
  (∀ (s : State) (e : HostEvent) (rest : List HostEvent), s.busy = false → s.stalled = e :: rest →
    step s = perform { s with stalled := rest } e)

/-- R182, R181, R40: a write of SRST and the hard-reset input. Both abandon a running command and clear every register; the
soft reset keeps operand memory, the hard reset leaves no slot with a value. That all of CTRL is 0 after a write of both bits
and that the held accesses stay behind a hard reset are the model's reading (log 10, log 11). -/
def Obligations.ResetsClearTheRegisters : Prop :=
  (∀ (s t : State) (v : Word), v.getLsbD 1 = true → PerformsNext s (.write 0x010 8 v) t →
    step s = .next { State.resetWith s.params with
      om := s.om, sched := t.sched, host := t.host, stalled := t.stalled, answers := .written :: t.answers }) ∧
  (∀ s t : State, PerformsNext s .hardReset t →
    step s = .next { State.resetWith s.params with
      sched := t.sched, host := t.host, stalled := t.stalled, answers := t.answers }) ∧
  (∀ (p : Word) (n : Nat), (State.resetWith p).slot n = none ∧ irq (State.resetWith p) = false) ∧
  (∀ s : State, stalls s .hardReset = false ∧ ∀ v, stalls s (.write 0x010 8 v) = false)

/-- R43, R177, R42: an access of another width or at an address that is no multiple of 8 is a bus error and changes nothing;
a legal access outside the map reads 0 and ignores writes. That such an access is answered at once while a command runs is
the model's choice (log 9). -/
def Obligations.BusErrorsAndReservedAddresses : Prop :=
  (∀ (s t : State) (addr : HostAddr) (width : Nat) (v : Word), width ≠ 8 ∨ addr.toNat % 8 ≠ 0 →
    (PerformsNext s (.read addr width) t → step s = .next { t with answers := .busError :: t.answers }) ∧
    (PerformsNext s (.write addr width v) t → step s = .next { t with answers := .busError :: t.answers }) ∧
    stalls s (.read addr width) = false ∧ stalls s (.write addr width v) = false) ∧
  (∀ (s t : State) (addr : HostAddr) (v : Word), addr.toNat % 8 = 0 →
    (0x1000 ≤ addr.toNat ∧ addr.toNat < 0x100000) ∨ 0x100000 + 48 * s.nSlots ≤ addr.toNat →
    (PerformsNext s (.read addr 8) t → step s = .next { t with answers := .data 0 :: t.answers }) ∧
    (PerformsNext s (.write addr 8 v) t → step s = .next { t with answers := .written :: t.answers }))
end

