-- ==== Sys2Proof/Laws/Field.lean ====
section
/-! SUPPORT. The first laws of Fp words: the radix and its inverse, Montgomery words and values. -/

namespace Sys2Proof.Machine

theorem radix_mul_radixInv : Config.radix * Config.radixInv % Config.p = 1 := by decide +kernel

/-- `val(mont(a)) = a` (R14). -/
theorem valOf_mont (a : Fp) : valOf (mont a) = a := by
  apply Fin.ext
  show (a.val * Config.radix % Config.p) * Config.radixInv % Config.p = a.val
  rw [Nat.mod_mul_mod, Nat.mul_assoc, ← Nat.mul_mod_mod, radix_mul_radixInv, Nat.mul_one, Nat.mod_eq_of_lt a.isLt]

/-- `mont(val(w)) = w` (R14). -/
theorem mont_valOf (w : Fp) : mont (valOf w) = w := by
  apply Fin.ext
  show (w.val * Config.radixInv % Config.p) * Config.radix % Config.p = w.val
  rw [Nat.mod_mul_mod, Nat.mul_assoc, Nat.mul_comm Config.radixInv, ← Nat.mul_mod_mod, radix_mul_radixInv, Nat.mul_one,
    Nat.mod_eq_of_lt w.isLt]

theorem p_lt_slot : Config.p < 2 ^ 384 := by decide +kernel

/-- A canonical word keeps its number in a slot. -/
theorem slotWord_toNat (w : Fp) : w.slotWord.toNat = w.val := by
  rw [Fp.slotWord, BitVec.toNat_ofNat]
  exact Nat.mod_eq_of_lt (Nat.lt_trans w.isLt p_lt_slot)

end Sys2Proof.Machine
end

