-- ==== Sys2Proof/Laws/State.lean ====
section
/-! SUPPORT. One lemma per field of State per update: acceptance, the two completions, the two resets, an answer. -/

namespace Sys2Proof.Machine

@[simp] theorem State.accept_params (s : State) (w : Word) : (s.accept w).params = s.params := rfl
@[simp] theorem State.accept_irqEn (s : State) (w : Word) : (s.accept w).irqEn = s.irqEn := rfl
@[simp] theorem State.accept_busy (s : State) (w : Word) : (s.accept w).busy = true := rfl
@[simp] theorem State.accept_done (s : State) (w : Word) : (s.accept w).done = false := rfl
@[simp] theorem State.accept_flag (s : State) (w : Word) : (s.accept w).flag = false := rfl
@[simp] theorem State.accept_stickyErr (s : State) (w : Word) : (s.accept w).stickyErr = s.stickyErr := rfl
@[simp] theorem State.accept_errCode (s : State) (w : Word) : (s.accept w).errCode = .none := rfl
@[simp] theorem State.accept_errInfo (s : State) (w : Word) : (s.accept w).errInfo = .zero := rfl
@[simp] theorem State.accept_count (s : State) (w : Word) : (s.accept w).count = s.count := rfl
@[simp] theorem State.accept_result (s : State) (w : Word) : (s.accept w).result = 0 := rfl
@[simp] theorem State.accept_cmd (s : State) (w : Word) : (s.accept w).cmd = w := rfl
@[simp] theorem State.accept_countLatch (s : State) (w : Word) : (s.accept w).countLatch = s.count := rfl
@[simp] theorem State.accept_om (s : State) (w : Word) : (s.accept w).om = s.om := rfl
@[simp] theorem State.accept_sched (s : State) (w : Word) : (s.accept w).sched = s.sched := rfl
@[simp] theorem State.accept_host (s : State) (w : Word) : (s.accept w).host = s.host := rfl
@[simp] theorem State.accept_stalled (s : State) (w : Word) : (s.accept w).stalled = s.stalled := rfl
@[simp] theorem State.accept_answers (s : State) (w : Word) : (s.accept w).answers = s.answers := rfl

@[simp] theorem State.succeed_params (s : State) (e : Effect) : (s.succeed e).params = s.params := rfl
@[simp] theorem State.succeed_irqEn (s : State) (e : Effect) : (s.succeed e).irqEn = s.irqEn := rfl
@[simp] theorem State.succeed_busy (s : State) (e : Effect) : (s.succeed e).busy = false := rfl
@[simp] theorem State.succeed_done (s : State) (e : Effect) : (s.succeed e).done = true := rfl
@[simp] theorem State.succeed_flag (s : State) (e : Effect) : (s.succeed e).flag = e.flag := rfl
@[simp] theorem State.succeed_stickyErr (s : State) (e : Effect) : (s.succeed e).stickyErr = s.stickyErr := rfl
@[simp] theorem State.succeed_errCode (s : State) (e : Effect) : (s.succeed e).errCode = .none := rfl
@[simp] theorem State.succeed_errInfo (s : State) (e : Effect) : (s.succeed e).errInfo = s.errInfo := rfl
@[simp] theorem State.succeed_count (s : State) (e : Effect) : (s.succeed e).count = s.count := rfl
@[simp] theorem State.succeed_result (s : State) (e : Effect) : (s.succeed e).result = e.result := rfl
@[simp] theorem State.succeed_cmd (s : State) (e : Effect) : (s.succeed e).cmd = s.cmd := rfl
@[simp] theorem State.succeed_countLatch (s : State) (e : Effect) : (s.succeed e).countLatch = 0 := rfl
@[simp] theorem State.succeed_om (s : State) (e : Effect) : (s.succeed e).om = Memory.commit s.om e.writes := rfl
@[simp] theorem State.succeed_sched (s : State) (e : Effect) : (s.succeed e).sched = s.sched := rfl
@[simp] theorem State.succeed_host (s : State) (e : Effect) : (s.succeed e).host = s.host := rfl
@[simp] theorem State.succeed_stalled (s : State) (e : Effect) : (s.succeed e).stalled = s.stalled := rfl
@[simp] theorem State.succeed_answers (s : State) (e : Effect) : (s.succeed e).answers = s.answers := rfl

@[simp] theorem State.failWith_params (s : State) (opc : BitVec 8) (e : CmdError) : (s.failWith opc e).params = s.params := rfl
@[simp] theorem State.failWith_irqEn (s : State) (opc : BitVec 8) (e : CmdError) : (s.failWith opc e).irqEn = s.irqEn := rfl
@[simp] theorem State.failWith_busy (s : State) (opc : BitVec 8) (e : CmdError) : (s.failWith opc e).busy = false := rfl
@[simp] theorem State.failWith_done (s : State) (opc : BitVec 8) (e : CmdError) : (s.failWith opc e).done = true := rfl
@[simp] theorem State.failWith_flag (s : State) (opc : BitVec 8) (e : CmdError) : (s.failWith opc e).flag = s.flag := rfl
@[simp] theorem State.failWith_stickyErr (s : State) (opc : BitVec 8) (e : CmdError) : (s.failWith opc e).stickyErr = true := rfl
@[simp] theorem State.failWith_errCode (s : State) (opc : BitVec 8) (e : CmdError) : (s.failWith opc e).errCode = e.code := rfl
@[simp] theorem State.failWith_errInfo (s : State) (opc : BitVec 8) (e : CmdError) : (s.failWith opc e).errInfo = ⟨opc, e.opnd, e.slot, e.index⟩ := rfl
@[simp] theorem State.failWith_count (s : State) (opc : BitVec 8) (e : CmdError) : (s.failWith opc e).count = s.count := rfl
@[simp] theorem State.failWith_result (s : State) (opc : BitVec 8) (e : CmdError) : (s.failWith opc e).result = s.result := rfl
@[simp] theorem State.failWith_cmd (s : State) (opc : BitVec 8) (e : CmdError) : (s.failWith opc e).cmd = s.cmd := rfl
@[simp] theorem State.failWith_countLatch (s : State) (opc : BitVec 8) (e : CmdError) : (s.failWith opc e).countLatch = 0 := rfl
@[simp] theorem State.failWith_om (s : State) (opc : BitVec 8) (e : CmdError) : (s.failWith opc e).om = s.om := rfl
@[simp] theorem State.failWith_sched (s : State) (opc : BitVec 8) (e : CmdError) : (s.failWith opc e).sched = s.sched := rfl
@[simp] theorem State.failWith_host (s : State) (opc : BitVec 8) (e : CmdError) : (s.failWith opc e).host = s.host := rfl
@[simp] theorem State.failWith_stalled (s : State) (opc : BitVec 8) (e : CmdError) : (s.failWith opc e).stalled = s.stalled := rfl
@[simp] theorem State.failWith_answers (s : State) (opc : BitVec 8) (e : CmdError) : (s.failWith opc e).answers = s.answers := rfl

@[simp] theorem State.softReset_params (s : State) : (s.softReset).params = s.params := rfl
@[simp] theorem State.softReset_irqEn (s : State) : (s.softReset).irqEn = false := rfl
@[simp] theorem State.softReset_busy (s : State) : (s.softReset).busy = false := rfl
@[simp] theorem State.softReset_done (s : State) : (s.softReset).done = false := rfl
@[simp] theorem State.softReset_flag (s : State) : (s.softReset).flag = false := rfl
@[simp] theorem State.softReset_stickyErr (s : State) : (s.softReset).stickyErr = false := rfl
@[simp] theorem State.softReset_errCode (s : State) : (s.softReset).errCode = .none := rfl
@[simp] theorem State.softReset_errInfo (s : State) : (s.softReset).errInfo = .zero := rfl
@[simp] theorem State.softReset_count (s : State) : (s.softReset).count = 0 := rfl
@[simp] theorem State.softReset_result (s : State) : (s.softReset).result = 0 := rfl
@[simp] theorem State.softReset_cmd (s : State) : (s.softReset).cmd = 0 := rfl
@[simp] theorem State.softReset_countLatch (s : State) : (s.softReset).countLatch = 0 := rfl
@[simp] theorem State.softReset_om (s : State) : (s.softReset).om = s.om := rfl
@[simp] theorem State.softReset_sched (s : State) : (s.softReset).sched = s.sched := rfl
@[simp] theorem State.softReset_host (s : State) : (s.softReset).host = s.host := rfl
@[simp] theorem State.softReset_stalled (s : State) : (s.softReset).stalled = s.stalled := rfl
@[simp] theorem State.softReset_answers (s : State) : (s.softReset).answers = s.answers := rfl

@[simp] theorem State.hardReset_params (s : State) : (s.hardReset).params = s.params := rfl
@[simp] theorem State.hardReset_irqEn (s : State) : (s.hardReset).irqEn = false := rfl
@[simp] theorem State.hardReset_busy (s : State) : (s.hardReset).busy = false := rfl
@[simp] theorem State.hardReset_done (s : State) : (s.hardReset).done = false := rfl
@[simp] theorem State.hardReset_flag (s : State) : (s.hardReset).flag = false := rfl
@[simp] theorem State.hardReset_stickyErr (s : State) : (s.hardReset).stickyErr = false := rfl
@[simp] theorem State.hardReset_errCode (s : State) : (s.hardReset).errCode = .none := rfl
@[simp] theorem State.hardReset_errInfo (s : State) : (s.hardReset).errInfo = .zero := rfl
@[simp] theorem State.hardReset_count (s : State) : (s.hardReset).count = 0 := rfl
@[simp] theorem State.hardReset_result (s : State) : (s.hardReset).result = 0 := rfl
@[simp] theorem State.hardReset_cmd (s : State) : (s.hardReset).cmd = 0 := rfl
@[simp] theorem State.hardReset_countLatch (s : State) : (s.hardReset).countLatch = 0 := rfl
@[simp] theorem State.hardReset_om (s : State) : (s.hardReset).om = [] := rfl
@[simp] theorem State.hardReset_sched (s : State) : (s.hardReset).sched = s.sched := rfl
@[simp] theorem State.hardReset_host (s : State) : (s.hardReset).host = s.host := rfl
@[simp] theorem State.hardReset_stalled (s : State) : (s.hardReset).stalled = s.stalled := rfl
@[simp] theorem State.hardReset_answers (s : State) : (s.hardReset).answers = s.answers := rfl

@[simp] theorem State.answer_params (s : State) (r : Answer) : (s.answer r).params = s.params := rfl
@[simp] theorem State.answer_irqEn (s : State) (r : Answer) : (s.answer r).irqEn = s.irqEn := rfl
@[simp] theorem State.answer_busy (s : State) (r : Answer) : (s.answer r).busy = s.busy := rfl
@[simp] theorem State.answer_done (s : State) (r : Answer) : (s.answer r).done = s.done := rfl
@[simp] theorem State.answer_flag (s : State) (r : Answer) : (s.answer r).flag = s.flag := rfl
@[simp] theorem State.answer_stickyErr (s : State) (r : Answer) : (s.answer r).stickyErr = s.stickyErr := rfl
@[simp] theorem State.answer_errCode (s : State) (r : Answer) : (s.answer r).errCode = s.errCode := rfl
@[simp] theorem State.answer_errInfo (s : State) (r : Answer) : (s.answer r).errInfo = s.errInfo := rfl
@[simp] theorem State.answer_count (s : State) (r : Answer) : (s.answer r).count = s.count := rfl
@[simp] theorem State.answer_result (s : State) (r : Answer) : (s.answer r).result = s.result := rfl
@[simp] theorem State.answer_cmd (s : State) (r : Answer) : (s.answer r).cmd = s.cmd := rfl
@[simp] theorem State.answer_countLatch (s : State) (r : Answer) : (s.answer r).countLatch = s.countLatch := rfl
@[simp] theorem State.answer_om (s : State) (r : Answer) : (s.answer r).om = s.om := rfl
@[simp] theorem State.answer_sched (s : State) (r : Answer) : (s.answer r).sched = s.sched := rfl
@[simp] theorem State.answer_host (s : State) (r : Answer) : (s.answer r).host = s.host := rfl
@[simp] theorem State.answer_stalled (s : State) (r : Answer) : (s.answer r).stalled = s.stalled := rfl
@[simp] theorem State.answer_answers (s : State) (r : Answer) : (s.answer r).answers = r :: s.answers := rfl

@[simp] theorem State.accept_nSlots (s : State) (w : Word) : (s.accept w).nSlots = s.nSlots := rfl
@[simp] theorem State.accept_maxCount (s : State) (w : Word) : (s.accept w).maxCount = s.maxCount := rfl
@[simp] theorem State.succeed_nSlots (s : State) (e : Effect) : (s.succeed e).nSlots = s.nSlots := rfl
@[simp] theorem State.succeed_maxCount (s : State) (e : Effect) : (s.succeed e).maxCount = s.maxCount := rfl
@[simp] theorem State.failWith_nSlots (s : State) (opc : BitVec 8) (e : CmdError) : (s.failWith opc e).nSlots = s.nSlots := rfl
@[simp] theorem State.failWith_maxCount (s : State) (opc : BitVec 8) (e : CmdError) : (s.failWith opc e).maxCount = s.maxCount := rfl
@[simp] theorem State.softReset_nSlots (s : State) : (s.softReset).nSlots = s.nSlots := rfl
@[simp] theorem State.softReset_maxCount (s : State) : (s.softReset).maxCount = s.maxCount := rfl
@[simp] theorem State.hardReset_nSlots (s : State) : (s.hardReset).nSlots = s.nSlots := rfl
@[simp] theorem State.hardReset_maxCount (s : State) : (s.hardReset).maxCount = s.maxCount := rfl
@[simp] theorem State.answer_nSlots (s : State) (r : Answer) : (s.answer r).nSlots = s.nSlots := rfl
@[simp] theorem State.answer_maxCount (s : State) (r : Answer) : (s.answer r).maxCount = s.maxCount := rfl

end Sys2Proof.Machine
end

