-- ==== Sys2Proof/Laws/Layout.lean ====
section
/-! SUPPORT. What reading an operand gives (one lemma per layout), and what each shape of command answers. -/

namespace Sys2Proof.Machine

theorem slotsHold_append (s : State) (base : Nat) (xs ys : List SlotWord) :
    slotsHold s base (xs ++ ys) = (slotsHold s base xs && slotsHold s (base + xs.length) ys) := by
  induction xs generalizing base with
  | nil => simp [slotsHold]
  | cons x xs ih => simp [slotsHold, ih, Bool.and_assoc, Nat.add_assoc, Nat.add_comm 1]

/-- A layout reads back what its words say, and has as many words as its extent. -/
structure Lawful {α : Type} (L : Layout α) : Prop where
  length : ∀ x, (L.words x).length = L.extent
  read : ∀ s o idx base x, slotsHold s base (L.words x) = true → L.read s o idx base = .ok x

theorem readSlot_of_hold {s : State} {n : Nat} {w : SlotWord} (h : slotsHold s n [w] = true) :
    readSlot s n = .ok w := by
  simp only [slotsHold, Bool.and_true, decide_eq_true_eq] at h
  simp [readSlot, h]

theorem readWord_of_hold {s : State} {o : Operand} {idx n : Nat} {w : Fp} (h : slotsHold s n [w.slotWord] = true) :
    readWord s o idx n = .ok w := by
  simp [readWord, readSlot_of_hold h, slotWord_toNat]

theorem lawful_word : Lawful layoutWord := ⟨fun _ => rfl, fun _ _ _ _ _ h => readWord_of_hold h⟩

theorem lawful_fp : Lawful layoutFp :=
  ⟨fun _ => rfl, fun s o idx base x h => by
    simp only [layoutFp] at h ⊢
    simp only [readFp, readWord_of_hold h, valOf_mont]⟩

theorem Lawful.pair {α β : Type} {L : Layout α} {M : Layout β} (hL : Lawful L) (hM : Lawful M) :
    Lawful (L.pair M) :=
  ⟨fun x => by simp [Layout.pair, hL.length, hM.length], fun s o idx base x h => by
    simp only [Layout.pair, slotsHold_append, Bool.and_eq_true, hL.length] at h ⊢
    rw [hL.read s o idx base _ h.1, hM.read s o idx _ _ h.2]
    rfl⟩

theorem Lawful.iso {α β : Type} {L : Layout α} (hL : Lawful L) {make : α → β} {back : β → α}
    (h : ∀ y, make (back y) = y) : Lawful (L.iso make back) :=
  ⟨fun y => hL.length _, fun s o idx base y hy => by
    simp only [Layout.iso] at hy ⊢
    rw [hL.read s o idx base _ hy]
    exact congrArg Except.ok (h y)⟩

theorem lawful_fp2 : Lawful layoutFp2 := (lawful_fp.pair lawful_fp).iso fun _ => rfl
theorem lawful_sparse2 : Lawful layoutSparse2 := lawful_fp2.pair lawful_fp2
theorem lawful_sparse3 : Lawful layoutSparse3 := lawful_fp2.pair (lawful_fp2.pair lawful_fp2)
theorem lawful_fp6 : Lawful layoutFp6 := lawful_sparse3.iso fun _ => rfl
theorem lawful_fp12 : Lawful layoutFp12 := (lawful_fp6.pair lawful_fp6).iso fun _ => rfl
theorem Lawful.point {F : Type} {L : Layout F} (h : Lawful L) : Lawful (layoutPoint L) :=
  (h.pair (h.pair h)).iso fun _ => rfl
theorem lawful_g1 : Lawful layoutG1 := lawful_fp.point
theorem lawful_g2 : Lawful layoutG2 := lawful_fp2.point

/-- A scalar in range reads back (R53). -/
theorem readScalar_of_hold {s : State} {o : Operand} {idx n bound k : Nat} (h : slotsHold s n [BitVec.ofNat 384 k] = true)
    (hk : k < 2 ^ 256) (hb : k < bound) : readScalar bound s o idx n = .ok k := by
  have hn : (BitVec.ofNat 384 k).toNat = k := by
    rw [BitVec.toNat_ofNat]
    exact Nat.mod_eq_of_lt (Nat.lt_trans hk (by decide +kernel))
  simp only [readScalar, readSlot_of_hold h, hn]
  exact if_pos ⟨hk, hb⟩

/-- A raw run reads back (R55). -/
theorem readRaw_of_hold {s : State} {base : Nat} {ws : List SlotWord} (h : slotsHold s base ws = true) :
    readRaw s ws.length base = .ok ws := by
  induction ws generalizing base with
  | nil => rfl
  | cons w ws ih =>
    simp only [slotsHold, Bool.and_eq_true, decide_eq_true_eq] at h
    simp [readRaw, readSlot, h.1, ih h.2]

/-- A list reads back, element by element (R66). -/
theorem readListFrom_of_hold {α : Type} {L : Layout α} (hL : Lawful L) {s : State} {o : Operand} {idx base : Nat}
    {xs : List α} (h : slotsHold s base (xs.flatMap L.words) = true) :
    readListFrom L s o xs.length idx base = .ok xs := by
  induction xs generalizing idx base with
  | nil => rfl
  | cons x xs ih =>
    simp only [List.flatMap_cons, slotsHold_append, Bool.and_eq_true, hL.length] at h
    simp [readListFrom, hL.read s o idx base x h.1, ih h.2]

/-! ### The end of a command -/

/-- Everything `finish` can answer: success, one error, or the model's fault. -/
theorem finish_cases (opc : BitVec 8) (s : State) (r : Except Stop Effect) :
    (∃ e, r = .ok e ∧ finish opc s r = .next (s.succeed e)) ∨
    (∃ e, r = .error (.raise e) ∧ finish opc s r = .next (s.failWith opc e)) ∨
    (∃ f, r = .error (.fault f) ∧ finish opc s r = .fault f) := by
  match r with
  | .ok e => exact .inl ⟨e, rfl, rfl⟩
  | .error (.raise e) => exact .inr (.inl ⟨e, rfl, rfl⟩)
  | .error (.fault f) => exact .inr (.inr ⟨f, rfl, rfl⟩)

/-- The extents of operands that fit pass (R68). -/
theorem checkExtents_ok {s : State} {os : List (Operand × SlotAddr × Nat)}
    (h : ∀ x ∈ os, fits s x.2.1 x.2.2 = true) : checkExtents s os = .ok () := by
  induction os with
  | nil => rfl
  | cons x os ih =>
    obtain ⟨o, b, e⟩ := x
    have hb : b.toNat + e ≤ s.nSlots := of_decide_eq_true (h _ List.mem_cons_self)
    rw [checkExtents, if_neg (by omega)]
    exact ih fun y hy => h y (List.mem_cons_of_mem _ hy)

theorem holds_fits {α : Type} {L : Layout α} {s : State} {base : SlotAddr} {x : α} (h : holds L s base x = true) :
    fits s base L.extent = true := (Bool.and_eq_true _ _ ▸ h).1

theorem holds_read {α : Type} {L : Layout α} (hL : Lawful L) {s : State} {base : SlotAddr} {x : α}
    (h : holds L s base x = true) (o : Operand) (idx : Nat) : L.read s o idx base.toNat = .ok x :=
  hL.read _ _ _ _ _ (Bool.and_eq_true _ _ ▸ h).2

/-- A command with D and A whose operands are in place comes down to its body. -/
theorem commandDA_of_holds {α : Type} {LA : Layout α} (hA : Lawful LA) {opc : BitVec 8} {n : Nat} {d a : SlotAddr}
    {s : State} {body : α → Except Stop Effect} {x : α} (hd : fits s d n = true) (ha : holds LA s a x = true) :
    commandDA opc n LA d a s body = finish opc s (body x) := by
  unfold commandDA
  rw [checkExtents_ok (by simp [hd, holds_fits ha]), holds_read hA ha]
  rfl

/-- A command with D, A and B whose operands are in place comes down to its body. -/
theorem commandDAB_of_holds {α β : Type} {LA : Layout α} {LB : Layout β} (hA : Lawful LA) (hB : Lawful LB)
    {opc : BitVec 8} {n : Nat} {d a b : SlotAddr} {s : State} {body : α → β → Except Stop Effect} {x : α} {y : β}
    (hd : fits s d n = true) (ha : holds LA s a x = true) (hb : holds LB s b y = true) :
    commandDAB opc n LA LB d a b s body = finish opc s (body x y) := by
  unfold commandDAB
  rw [checkExtents_ok (by simp [hd, holds_fits ha, holds_fits hb]), holds_read hA ha, holds_read hB hb]
  rfl

/-- A command with A whose operand is in place comes down to its body. -/
theorem commandA_of_holds {α : Type} {LA : Layout α} (hA : Lawful LA) {opc : BitVec 8} {a : SlotAddr} {s : State}
    {body : α → Except Stop Effect} {x : α} (ha : holds LA s a x = true) :
    commandA opc LA a s body = finish opc s (body x) := by
  unfold commandA
  rw [checkExtents_ok (by simp [holds_fits ha]), holds_read hA ha]
  rfl

/-- A command with A and B whose operands are in place comes down to its body. -/
theorem commandAB_of_holds {α β : Type} {LA : Layout α} {LB : Layout β} (hA : Lawful LA) (hB : Lawful LB)
    {opc : BitVec 8} {a b : SlotAddr} {s : State} {body : α → β → Except Stop Effect} {x : α} {y : β}
    (ha : holds LA s a x = true) (hb : holds LB s b y = true) :
    commandAB opc LA LB a b s body = finish opc s (body x y) := by
  unfold commandAB
  rw [checkExtents_ok (by simp [holds_fits ha, holds_fits hb]), holds_read hA ha, holds_read hB hb]
  rfl

end Sys2Proof.Machine
end

