-- ==== Sys2Proof/Laws/Memory.lean ====
section
/-! SUPPORT. The laws of operand memory: reading after writing, what a write leaves alone, the canonical form. -/

namespace Sys2Proof.Machine

theorem Memory.read_write_same (m : Memory) (a : Nat) (v : Byte) : Memory.read (Memory.write m a v) a = some v := by
  induction m with
  | nil => simp [Memory.write, Memory.read]
  | cons c rest ih =>
    obtain ⟨x, w⟩ := c
    simp only [Memory.write]
    split
    · simp [Memory.read]
    · split
      · simp [Memory.read]
      · have : x ≠ a := fun h => by simp_all
        simp [Memory.read, this, ih]

theorem Memory.read_write_other (m : Memory) {a b : Nat} (v : Byte) (h : b ≠ a) :
    Memory.read (Memory.write m a v) b = Memory.read m b := by
  induction m with
  | nil => simp [Memory.write, Memory.read, h.symm]
  | cons c rest ih =>
    obtain ⟨x, w⟩ := c
    simp only [Memory.write]
    split
    · simp [Memory.read, h.symm]
    · split
      · next heq => subst heq; simp [Memory.read, h.symm]
      · simp [Memory.read, ih]

/-- The keys a write leaves: the old ones, and the one written. -/
theorem Memory.mem_write {m : Memory} {a : Nat} {v : Byte} {c : Host.Cell} (h : c ∈ Memory.write m a v) :
    c = (a, v) ∨ c ∈ m := by
  induction m with
  | nil => simpa [Memory.write] using h
  | cons d rest ih =>
    obtain ⟨x, w⟩ := d
    simp only [Memory.write] at h
    split at h
    · simpa using h
    · split at h
      · rcases List.mem_cons.mp h with h | h
        · exact .inl h
        · exact .inr (List.mem_cons_of_mem _ h)
      · rcases List.mem_cons.mp h with h | h
        · exact .inr (h ▸ List.mem_cons_self)
        · exact (ih h).imp id (List.mem_cons_of_mem _)

theorem Memory.wf_write {m : Memory} (a : Nat) (v : Byte) (h : m.wf) : (Memory.write m a v).wf := by
  induction m with
  | nil => simp [Memory.write]
  | cons c rest ih =>
    obtain ⟨x, w⟩ := c
    obtain ⟨hx, hrest⟩ := List.pairwise_cons.mp h
    simp only [Memory.write]
    split
    · next hlt =>
      refine List.pairwise_cons.mpr ⟨fun d hd => ?_, h⟩
      rcases List.mem_cons.mp hd with rfl | hd
      · exact hlt
      · exact Nat.lt_trans hlt (hx d hd)
    · split
      · next heq => subst heq; exact List.pairwise_cons.mpr ⟨hx, hrest⟩
      · refine List.pairwise_cons.mpr ⟨fun d hd => ?_, ih hrest⟩
        rcases Memory.mem_write hd with rfl | hd
        · show x < a
          omega
        · exact hx d hd

/-! ### Runs of bytes -/

theorem bytesOf_length (n v : Nat) : (bytesOf n v).length = n := by
  induction n generalizing v with
  | zero => rfl
  | succ n ih => simp [bytesOf, ih]

theorem ofBytes_bytesOf (n v : Nat) : ofBytes (bytesOf n v) = v % 256 ^ n := by
  induction n generalizing v with
  | zero => simp [bytesOf, ofBytes, Nat.mod_one]
  | succ n ih =>
    have h8 : (BitVec.ofNat 8 v).toNat = v % 256 := BitVec.toNat_ofNat v 8
    rw [bytesOf, ofBytes, ih, h8, pow_succ', Nat.mod_mul]

theorem Memory.read_writeBytes_other (m : Memory) (a : Nat) (bs : List Byte) {b : Nat}
    (h : b < a ∨ a + bs.length ≤ b) : Memory.read (Memory.writeBytes m a bs) b = Memory.read m b := by
  induction bs generalizing m a with
  | nil => rfl
  | cons x bs ih =>
    simp only [List.length_cons] at h
    simp only [Memory.writeBytes]
    rw [ih _ _ (by omega), Memory.read_write_other _ _ (by omega)]

theorem Memory.readBytes_congr {m m' : Memory} (a n : Nat)
    (h : ∀ b, a ≤ b → b < a + n → Memory.read m' b = Memory.read m b) :
    Memory.readBytes m' a n = Memory.readBytes m a n := by
  induction n generalizing a with
  | zero => rfl
  | succ n ih =>
    simp only [Memory.readBytes]
    rw [h a (Nat.le_refl _) (by omega), ih (a + 1) fun b h1 h2 => h b (by omega) (by omega)]

theorem Memory.readBytes_writeBytes_same (m : Memory) (a : Nat) (bs : List Byte) :
    Memory.readBytes (Memory.writeBytes m a bs) a bs.length = some bs := by
  induction bs generalizing m a with
  | nil => rfl
  | cons x bs ih =>
    simp only [Memory.writeBytes, List.length_cons, Memory.readBytes]
    rw [Memory.read_writeBytes_other _ _ _ (by omega), Memory.read_write_same, ih]

theorem Memory.readBytes_writeBytes_other (m : Memory) (a : Nat) (bs : List Byte) (b n : Nat)
    (h : b + n ≤ a ∨ a + bs.length ≤ b) :
    Memory.readBytes (Memory.writeBytes m a bs) b n = Memory.readBytes m b n :=
  Memory.readBytes_congr b n fun c h1 h2 => Memory.read_writeBytes_other _ _ _ (by omega)

theorem Memory.wf_writeBytes {m : Memory} (a : Nat) (bs : List Byte) (h : m.wf) : (Memory.writeBytes m a bs).wf := by
  induction bs generalizing m a with
  | nil => exact h
  | cons x bs ih => exact ih _ (Memory.wf_write _ _ h)

/-- The keys a run of writes leaves: the old ones, and the addresses written. -/
theorem Memory.mem_writeBytes {m : Memory} {a : Nat} {bs : List Byte} {c : Host.Cell}
    (h : c ∈ Memory.writeBytes m a bs) : (a ≤ c.1 ∧ c.1 < a + bs.length) ∨ c ∈ m := by
  induction bs generalizing m a with
  | nil => exact .inr h
  | cons x bs ih =>
    simp only [List.length_cons]
    rcases ih h with h | h
    · exact .inl (by omega)
    · rcases Memory.mem_write h with rfl | h
      · exact .inl (by simp)
      · exact .inr h

/-! ### Slots and limbs -/

theorem Memory.readSlot_writeSlot_same (m : Memory) (s : Nat) (v : SlotWord) :
    Memory.readSlot (Memory.writeSlot m s v) s = some v := by
  have h := Memory.readBytes_writeBytes_same m (slotAddress s) (bytesOf slotBytes v.toNat)
  rw [bytesOf_length] at h
  have hv : v.toNat % 256 ^ slotBytes = v.toNat := Nat.mod_eq_of_lt (lt_of_lt_of_eq v.isLt (pow_mul 2 8 48))
  rw [Memory.readSlot, Memory.writeSlot, h, Option.map_some, ofBytes_bytesOf, hv, BitVec.ofNat_toNat, BitVec.setWidth_eq]

theorem Memory.readSlot_writeSlot_other (m : Memory) {s n : Nat} (v : SlotWord) (h : n ≠ s) :
    Memory.readSlot (Memory.writeSlot m s v) n = Memory.readSlot m n := by
  have apart : slotAddress n + slotBytes ≤ slotAddress s ∨ slotAddress s + slotBytes ≤ slotAddress n := by
    simp only [slotAddress, slotBytes]; omega
  rw [Memory.readSlot, Memory.writeSlot, Memory.readBytes_writeBytes_other _ _ _ _ _ (by rw [bytesOf_length]; exact apart)]
  rfl

theorem Memory.wf_writeSlot {m : Memory} (s : Nat) (v : SlotWord) (h : m.wf) : (Memory.writeSlot m s v).wf :=
  Memory.wf_writeBytes _ _ h

theorem Memory.wf_writeLimb {m : Memory} (a : Nat) (v : Word) (h : m.wf) : (Memory.writeLimb m a v).wf :=
  Memory.wf_writeBytes _ _ h

theorem Memory.wf_commit {m : Memory} (ws : Writes) (h : m.wf) : (Memory.commit m ws).wf := by
  induction ws generalizing m with
  | nil => exact h
  | cons w ws ih =>
    obtain ⟨n, v⟩ := w
    rw [Memory.commit]
    exact ih (Memory.wf_writeSlot n v h)

/-- A byte outside every slot of a run of staged writes stays. -/
theorem Memory.read_commit_place (m : Memory) (base : Nat) (ws : List SlotWord) {a : Nat}
    (h : a < slotAddress base ∨ slotAddress (base + ws.length) ≤ a) :
    Memory.read (Memory.commit m (place base ws)) a = Memory.read m a := by
  induction ws generalizing m base with
  | nil => rfl
  | cons w ws ih =>
    simp only [slotAddress, slotBytes, List.length_cons] at h
    rw [place, Memory.commit, ih _ _ (by simp only [slotAddress, slotBytes]; omega), Memory.writeSlot,
      Memory.read_writeBytes_other _ _ _ (by rw [bytesOf_length]; simp only [slotAddress, slotBytes]; omega)]

/-- The keys a run of staged writes leaves: the old ones, and the bytes of its slots. -/
theorem Memory.mem_commit_place {m : Memory} {base : Nat} {ws : List SlotWord} {c : Host.Cell}
    (h : c ∈ Memory.commit m (place base ws)) :
    (slotAddress base ≤ c.1 ∧ c.1 < slotAddress (base + ws.length)) ∨ c ∈ m := by
  induction ws generalizing m base with
  | nil => exact .inr h
  | cons w ws ih =>
    simp only [place, Memory.commit] at h
    rcases ih h with h | h
    · simp only [slotAddress, slotBytes, List.length_cons] at h ⊢
      exact .inl (by omega)
    · rcases Memory.mem_writeBytes h with h | h
      · rw [bytesOf_length] at h
        simp only [slotAddress, slotBytes, List.length_cons] at h ⊢
        exact .inl (by omega)
      · exact .inr h

end Sys2Proof.Machine
end

