-- ==== Sys2Proof/Laws/Laid.lean ====
section
/-! SUPPORT. Small concrete states: operand memory that holds a list of slots, and what it holds. -/

namespace Sys2Proof.Machine

/-- A memory that holds the bytes `bs` from an address on. -/
def layBytes : Nat → List Byte → Memory
  | _, [] => []
  | addr, b :: bs => (addr, b) :: layBytes (addr + 1) bs

/-- Operand memory with `ws` from slot `n` on. -/
def memFrom (n : Nat) (ws : List SlotWord) : Memory :=
  layBytes (slotAddress n) (ws.flatMap fun w => bytesOf slotBytes w.toNat)

theorem read_layBytes (bs : List Byte) (addr i : Nat) : Memory.read (layBytes addr bs) (addr + i) = bs[i]? := by
  induction bs generalizing addr i with
  | nil => simp [layBytes, Memory.read]
  | cons b bs ih =>
    cases i with
    | zero => simp [layBytes, Memory.read]
    | succ i =>
      have h : addr ≠ addr + (i + 1) := by omega
      have := ih (addr + 1) i
      simp only [layBytes, Memory.read, if_neg h, List.getElem?_cons_succ]
      rw [← this]
      congr 1
      omega

theorem readBytes_layBytes (pre bs post : List Byte) (addr : Nat) :
    Memory.readBytes (layBytes addr (pre ++ (bs ++ post))) (addr + pre.length) bs.length = some bs := by
  induction bs generalizing pre with
  | nil => rfl
  | cons b bs ih =>
    have hb : Memory.read (layBytes addr (pre ++ (b :: bs ++ post))) (addr + pre.length) = some b := by
      rw [read_layBytes]
      simp
    have hs := ih (pre ++ [b])
    simp only [List.append_assoc, List.singleton_append, List.length_append, List.length_singleton,
      ← Nat.add_assoc] at hs
    rw [List.length_cons, Memory.readBytes, hb]
    simp only [List.cons_append]
    rw [hs]

theorem flatMap_bytes_length (ws : List SlotWord) :
    (ws.flatMap fun w => bytesOf slotBytes w.toNat).length = slotBytes * ws.length := by
  induction ws with
  | nil => rfl
  | cons w ws ih => simp only [List.flatMap_cons, List.length_append, bytesOf_length, ih, List.length_cons]; ring

/-- The slots of a memory that was laid out. -/
theorem readSlot_memFrom (n : Nat) (pre : List SlotWord) (w : SlotWord) (post : List SlotWord) :
    Memory.readSlot (memFrom n (pre ++ w :: post)) (n + pre.length) = some w := by
  have h := readBytes_layBytes (pre.flatMap fun w => bytesOf slotBytes w.toNat) (bytesOf slotBytes w.toNat)
    (post.flatMap fun w => bytesOf slotBytes w.toNat) (slotAddress n)
  have ha : slotAddress n + slotBytes * pre.length = slotAddress (n + pre.length) := by
    simp only [slotAddress]
    ring
  rw [flatMap_bytes_length, bytesOf_length, ha] at h
  simp only [Memory.readSlot, memFrom, List.flatMap_append, List.flatMap_cons, h, Option.map_some, ofBytes_bytesOf]
  congr 1
  apply BitVec.eq_of_toNat_eq
  have hw : w.toNat < 2 ^ 384 := w.isLt
  rw [BitVec.toNat_ofNat]
  have : (256 : Nat) ^ slotBytes = 2 ^ 384 := by decide +kernel
  rw [this, Nat.mod_mod, Nat.mod_eq_of_lt hw]

theorem slotsHold_memFrom {s : State} {n : Nat} (pre ws post : List SlotWord)
    (hm : s.om = memFrom n (pre ++ (ws ++ post))) : slotsHold s (n + pre.length) ws = true := by
  induction ws generalizing pre with
  | nil => rfl
  | cons w ws ih =>
    have h1 : s.slot (n + pre.length) = some w := by
      rw [State.slot, hm]
      exact readSlot_memFrom n pre w (ws ++ post)
    have h2 := ih (pre ++ [w]) (by rw [hm]; simp)
    rw [List.length_append, List.length_singleton, ← Nat.add_assoc] at h2
    simp [slotsHold, h1, h2]

/-- An operand laid out in memory is in place. -/
theorem holds_memFrom {α : Type} {L : Layout α} {s : State} {n : Nat} {base : SlotAddr} {x : α}
    (pre post : List SlotWord) (hm : s.om = memFrom n (pre ++ (L.words x ++ post)))
    (hb : base.toNat = n + pre.length) (hf : fits s base L.extent = true) : holds L s base x = true := by
  simp [holds, hf, hb, slotsHold_memFrom pre (L.words x) post hm]

end Sys2Proof.Machine
end

