-- ==== Sys2Proof/Laws/PerInstr.lean ====
section
/-! SUPPORT. The per-instruction family MaskMatch (R74): every command's word agrees with its opcode's match under its mask. -/

namespace Sys2Proof.Laws.MaskMatch

/-- R74: `(word & mask) = match` for the word of the command. -/
def Statement (i : Instr) : Prop := encode i &&& maskOf i = matchOf i

theorem append_and {n m : Nat} (x x' : BitVec n) (y y' : BitVec m) :
    (x ++ y) &&& (x' ++ y') = (x &&& x') ++ (y &&& y') := by
  ext k hk
  simp only [BitVec.getElem_and, BitVec.getElem_append]
  split <;> rfl

/-- The words of two sets of fields meet field by field. -/
theorem commandWord_and (o o' x x' : BitVec 8) (d d' a a' b b' : SlotAddr) :
    commandWord o x d a b &&& commandWord o' x' d' a' b' =
      commandWord (o &&& o') (x &&& x') (d &&& d') (a &&& a') (b &&& b') := by
  refine (append_and _ _ o o').trans (congrArg (· ++ (o &&& o')) ?_)
  refine (append_and _ _ x x').trans (congrArg (· ++ (x &&& x')) ?_)
  refine (append_and _ _ d d').trans (congrArg (· ++ (d &&& d')) ?_)
  exact append_and b b' a a'

/-- A word with no field but OPC is its OPC. -/
theorem commandWord_opc (o : BitVec 8) : commandWord o 0 0 0 0 = o.setWidth 64 := by
  revert o
  decide

theorem and_all8 (o : BitVec 8) : o &&& 0xFF = o := by
  revert o
  decide

/-- A word meets its mask where each used field is masked out and each unused one is 0. -/
theorem of_form (i : Instr) : Statement i := by
  simp only [Statement, encode, maskOf, matchOf, opcode, commandWord_and, and_all8]
  have h8 : ∀ x : Option (BitVec 8), x.getD 0 &&& (if x.isSome then 0 else 0xFF) = 0 := by
    intro x; cases x <;> simp
  have h16 : ∀ x : Option SlotAddr, x.getD 0 &&& (if x.isSome then 0 else 0xFFFF) = 0 := by
    intro x; cases x <;> simp
  rw [h8, h16, h16, h16, commandWord_opc]

theorem nop : Statement (.nop) := of_form _
theorem copy (d a : SlotAddr) (k : BitVec 8) : Statement (.copy d a k) := of_form _
theorem ldc (d : SlotAddr) (k : BitVec 8) : Statement (.ldc d k) := of_form _
theorem fpAdd (d a b : SlotAddr) : Statement (.fpAdd d a b) := of_form _
theorem fpSub (d a b : SlotAddr) : Statement (.fpSub d a b) := of_form _
theorem fpDbl (d a : SlotAddr) : Statement (.fpDbl d a) := of_form _
theorem fpNeg (d a : SlotAddr) : Statement (.fpNeg d a) := of_form _
theorem fpMul (d a b : SlotAddr) : Statement (.fpMul d a b) := of_form _
theorem fpSqr (d a : SlotAddr) : Statement (.fpSqr d a) := of_form _
theorem fpTomont (d a : SlotAddr) : Statement (.fpTomont d a) := of_form _
theorem fpFrommont (d a : SlotAddr) : Statement (.fpFrommont d a) := of_form _
theorem fpInv (d a : SlotAddr) : Statement (.fpInv d a) := of_form _
theorem fpSqrt (d a : SlotAddr) : Statement (.fpSqrt d a) := of_form _
theorem fpIsqnr (a : SlotAddr) : Statement (.fpIsqnr a) := of_form _
theorem fpEq (a b : SlotAddr) : Statement (.fpEq a b) := of_form _
theorem fpIszero (a : SlotAddr) : Statement (.fpIszero a) := of_form _
theorem fp2Add (d a b : SlotAddr) : Statement (.fp2Add d a b) := of_form _
theorem fp2Sub (d a b : SlotAddr) : Statement (.fp2Sub d a b) := of_form _
theorem fp2Dbl (d a : SlotAddr) : Statement (.fp2Dbl d a) := of_form _
theorem fp2Neg (d a : SlotAddr) : Statement (.fp2Neg d a) := of_form _
theorem fp2Mul (d a b : SlotAddr) : Statement (.fp2Mul d a b) := of_form _
theorem fp2Sqr (d a : SlotAddr) : Statement (.fp2Sqr d a) := of_form _
theorem fp2Inv (d a : SlotAddr) : Statement (.fp2Inv d a) := of_form _
theorem fp2Conj (d a : SlotAddr) : Statement (.fp2Conj d a) := of_form _
theorem fp2Frob (d a : SlotAddr) (k : BitVec 8) : Statement (.fp2Frob d a k) := of_form _
theorem fp2Eq (a b : SlotAddr) : Statement (.fp2Eq a b) := of_form _
theorem fp6Add (d a b : SlotAddr) : Statement (.fp6Add d a b) := of_form _
theorem fp6Sub (d a b : SlotAddr) : Statement (.fp6Sub d a b) := of_form _
theorem fp6Dbl (d a : SlotAddr) : Statement (.fp6Dbl d a) := of_form _
theorem fp6Neg (d a : SlotAddr) : Statement (.fp6Neg d a) := of_form _
theorem fp6Mul (d a b : SlotAddr) : Statement (.fp6Mul d a b) := of_form _
theorem fp6Sqr (d a : SlotAddr) : Statement (.fp6Sqr d a) := of_form _
theorem fp6Inv (d a : SlotAddr) : Statement (.fp6Inv d a) := of_form _
theorem fp6Frob (d a : SlotAddr) (k : BitVec 8) : Statement (.fp6Frob d a k) := of_form _
theorem fp6Mulby01 (d a b : SlotAddr) : Statement (.fp6Mulby01 d a b) := of_form _
theorem fp6Mulby1 (d a b : SlotAddr) : Statement (.fp6Mulby1 d a b) := of_form _
theorem fp6Eq (a b : SlotAddr) : Statement (.fp6Eq a b) := of_form _
theorem fp12Add (d a b : SlotAddr) : Statement (.fp12Add d a b) := of_form _
theorem fp12Sub (d a b : SlotAddr) : Statement (.fp12Sub d a b) := of_form _
theorem fp12Dbl (d a : SlotAddr) : Statement (.fp12Dbl d a) := of_form _
theorem fp12Neg (d a : SlotAddr) : Statement (.fp12Neg d a) := of_form _
theorem fp12Mul (d a b : SlotAddr) : Statement (.fp12Mul d a b) := of_form _
theorem fp12Sqr (d a : SlotAddr) : Statement (.fp12Sqr d a) := of_form _
theorem fp12Inv (d a : SlotAddr) : Statement (.fp12Inv d a) := of_form _
theorem fp12Conj (d a : SlotAddr) : Statement (.fp12Conj d a) := of_form _
theorem fp12Frob (d a : SlotAddr) (k : BitVec 8) : Statement (.fp12Frob d a k) := of_form _
theorem fp12Mulby014 (d a b : SlotAddr) : Statement (.fp12Mulby014 d a b) := of_form _
theorem fp12Mulby034 (d a b : SlotAddr) : Statement (.fp12Mulby034 d a b) := of_form _
theorem fp12Csqr (d a : SlotAddr) : Statement (.fp12Csqr d a) := of_form _
theorem fp12Eq (a b : SlotAddr) : Statement (.fp12Eq a b) := of_form _
theorem g1Add (d a b : SlotAddr) : Statement (.g1Add d a b) := of_form _
theorem g1Addm (d a b : SlotAddr) : Statement (.g1Addm d a b) := of_form _
theorem g1Dbl (d a : SlotAddr) : Statement (.g1Dbl d a) := of_form _
theorem g1Neg (d a : SlotAddr) : Statement (.g1Neg d a) := of_form _
theorem g1Sub (d a b : SlotAddr) : Statement (.g1Sub d a b) := of_form _
theorem g1Mul (d a b : SlotAddr) : Statement (.g1Mul d a b) := of_form _
theorem g1Eq (a b : SlotAddr) : Statement (.g1Eq a b) := of_form _
theorem g1Iszero (a : SlotAddr) : Statement (.g1Iszero a) := of_form _
theorem g1Oncurve (a : SlotAddr) : Statement (.g1Oncurve a) := of_form _
theorem g1Insub (a : SlotAddr) : Statement (.g1Insub a) := of_form _
theorem g1Check (a : SlotAddr) : Statement (.g1Check a) := of_form _
theorem g1Affine (d a : SlotAddr) : Statement (.g1Affine d a) := of_form _
theorem g1Affb (d a : SlotAddr) : Statement (.g1Affb d a) := of_form _
theorem g1Msm (d a b : SlotAddr) : Statement (.g1Msm d a b) := of_form _
theorem g1Isaffine (a : SlotAddr) : Statement (.g1Isaffine a) := of_form _
theorem g1Mulct (d a b : SlotAddr) : Statement (.g1Mulct d a b) := of_form _
theorem g2Add (d a b : SlotAddr) : Statement (.g2Add d a b) := of_form _
theorem g2Addm (d a b : SlotAddr) : Statement (.g2Addm d a b) := of_form _
theorem g2Dbl (d a : SlotAddr) : Statement (.g2Dbl d a) := of_form _
theorem g2Neg (d a : SlotAddr) : Statement (.g2Neg d a) := of_form _
theorem g2Sub (d a b : SlotAddr) : Statement (.g2Sub d a b) := of_form _
theorem g2Mul (d a b : SlotAddr) : Statement (.g2Mul d a b) := of_form _
theorem g2Eq (a b : SlotAddr) : Statement (.g2Eq a b) := of_form _
theorem g2Iszero (a : SlotAddr) : Statement (.g2Iszero a) := of_form _
theorem g2Oncurve (a : SlotAddr) : Statement (.g2Oncurve a) := of_form _
theorem g2Insub (a : SlotAddr) : Statement (.g2Insub a) := of_form _
theorem g2Check (a : SlotAddr) : Statement (.g2Check a) := of_form _
theorem g2Affine (d a : SlotAddr) : Statement (.g2Affine d a) := of_form _
theorem g2Affb (d a : SlotAddr) : Statement (.g2Affb d a) := of_form _
theorem g2Msm (d a b : SlotAddr) : Statement (.g2Msm d a b) := of_form _
theorem g2Isaffine (a : SlotAddr) : Statement (.g2Isaffine a) := of_form _
theorem g2Mulct (d a b : SlotAddr) : Statement (.g2Mulct d a b) := of_form _
theorem miller (d a b : SlotAddr) : Statement (.miller d a b) := of_form _
theorem finalexp (d a : SlotAddr) : Statement (.finalexp d a) := of_form _
theorem pair (d a b : SlotAddr) : Statement (.pair d a b) := of_form _
theorem pcheck (a b : SlotAddr) : Statement (.pcheck a b) := of_form _
theorem cexp (d a : SlotAddr) : Statement (.cexp d a) := of_form _
theorem wnaf (d a : SlotAddr) (k : BitVec 8) : Statement (.wnaf d a k) := of_form _
theorem fromwnaf (d a : SlotAddr) : Statement (.fromwnaf d a) := of_form _

end Sys2Proof.Laws.MaskMatch
end

