-- ==== Sys2Proof/Laws/Prime.lean ====
section
/-! SUPPORT. The base-field modulus of R6 is prime: Pocklington certificates from a divisor of n − 1 above √n. -/

namespace Sys2Proof

/-- Square-and-multiply modulo n; `fuel` bounds the bits of the exponent. -/
def powMod (n a : Nat) : Nat → Nat → Nat
  | 0, _ => 1 % n
  | fuel + 1, e =>
    let h := powMod n a fuel (e / 2)
    if e % 2 = 1 then h * h % n * a % n else h * h % n

theorem powMod_eq (n a : Nat) : ∀ fuel e, e < 2 ^ fuel → powMod n a fuel e = a ^ e % n
  | 0, e, h => by
    have : e = 0 := by omega
    simp [powMod, this]
  | fuel + 1, e, h => by
    have ih := powMod_eq n a fuel (e / 2) (by rw [pow_succ] at h; omega)
    have hsq : a ^ (e / 2) * a ^ (e / 2) * a ^ (e % 2) = a ^ e := by
      rw [← pow_add, ← pow_add]
      congr 1
      omega
    simp only [powMod, ih]
    split
    · rename_i h1
      rw [← hsq, h1, pow_one]
      simp [Nat.mul_mod]
    · rename_i h1
      have h0 : e % 2 = 0 := by omega
      rw [← hsq, h0, pow_zero, mul_one]
      simp [Nat.mul_mod]

/-- Pocklington: where a certifies the prime q of n − 1, q divides r − 1 for every prime r that divides n. -/
theorem dvd_pred_of_certificate {n q r : Nat} (a : Nat) (hn : 1 < n) (hq : q.Prime) (hd : q ∣ n - 1)
    (h1 : a ^ (n - 1) % n = 1) (hg : Nat.Coprime (a ^ ((n - 1) / q) % n + (n - 1)) n) (hr : r.Prime) (hrn : r ∣ n) :
    q ∣ r - 1 := by
  have : Fact r.Prime := ⟨hr⟩
  have : Fact q.Prime := ⟨hq⟩
  have hn0 : ((n : Nat) : ZMod r) = 0 := (ZMod.natCast_eq_zero_iff n r).2 hrn
  have hmod : ∀ m : Nat, ((m % n : Nat) : ZMod r) = (m : ZMod r) := by
    intro m
    conv_rhs => rw [← Nat.mod_add_div m n]
    push_cast
    rw [hn0, zero_mul, add_zero]
  have hone : ((a : ZMod r)) ^ (n - 1) = 1 := by
    have := hmod (a ^ (n - 1))
    rw [h1] at this
    simpa using this.symm
  set b : ZMod r := (a : ZMod r) ^ ((n - 1) / q) with hb
  have hbq : b ^ q = 1 := by rw [hb, ← pow_mul, Nat.div_mul_cancel hd, hone]
  have hb1 : b ≠ 1 := by
    intro hb1
    have hz : ((a ^ ((n - 1) / q) % n + (n - 1) : Nat) : ZMod r) = 0 := by
      rw [Nat.cast_add, hmod, Nat.cast_sub (by omega), hn0]
      push_cast
      rw [← hb, hb1]
      ring
    have hr1 : r ∣ a ^ ((n - 1) / q) % n + (n - 1) := (ZMod.natCast_eq_zero_iff _ r).1 hz
    exact hr.one_lt.ne' (Nat.dvd_one.1 (hg ▸ Nat.dvd_gcd hr1 hrn))
  have hord : orderOf b = q := orderOf_eq_prime hbq hb1
  have hb0 : b ≠ 0 := by
    intro h0
    rw [h0, zero_pow hq.ne_zero] at hbq
    exact zero_ne_one hbq
  rw [← hord]
  exact orderOf_dvd_of_pow_eq_one (ZMod.pow_card_sub_one_eq_one hb0)

/-- Pocklington: a divisor f of every r − 1 with f² > n leaves no room for a proper prime divisor r of n. -/
theorem prime_of_large_divisor {n f : Nat} (hn : 1 < n) (hbig : n < f * f)
    (h : ∀ r, r.Prime → r ∣ n → f ∣ r - 1) : n.Prime := by
  by_contra hnp
  have hr := Nat.minFac_prime (by omega : n ≠ 1)
  have hsq := Nat.minFac_sq_le_self (by omega : 0 < n) hnp
  have hr2 := hr.two_le
  have hle : f ≤ n.minFac - 1 := Nat.le_of_dvd (by omega) (h _ hr (Nat.minFac_dvd n))
  have : f * f < n.minFac * n.minFac := Nat.mul_self_lt_mul_self (by omega)
  rw [pow_two] at hsq
  omega

/-- The certificate of one prime q as a computation: the conditions on a, evaluated by `powMod`. -/
def certifies (n q a fuel : Nat) : Bool :=
  decide (1 < n) && decide ((n - 1) % q = 0) && decide (n - 1 < 2 ^ fuel) &&
    decide (powMod n a fuel (n - 1) = 1) && decide (Nat.gcd (powMod n a fuel ((n - 1) / q) + (n - 1)) n = 1)

theorem dvd_pred_of_certifies {n q a fuel : Nat} (hq : q.Prime) (h : certifies n q a fuel = true) :
    1 < n ∧ ∀ r, r.Prime → r ∣ n → q ∣ r - 1 := by
  simp only [certifies, Bool.and_eq_true, decide_eq_true_eq] at h
  obtain ⟨⟨⟨⟨hn, hd⟩, hf⟩, h1⟩, hg⟩ := h
  rw [powMod_eq n a fuel _ hf] at h1
  rw [powMod_eq n a fuel _ (lt_of_le_of_lt (Nat.div_le_self _ _) hf)] at hg
  exact ⟨hn, fun r hr hrn => dvd_pred_of_certificate a hn hq (Nat.dvd_of_mod_eq_zero hd) h1 hg hr hrn⟩

theorem prime_of_certifies {n q a fuel : Nat} (hq : q.Prime) (hbig : n < q * q) (h : certifies n q a fuel = true) :
    n.Prime :=
  prime_of_large_divisor (dvd_pred_of_certifies hq h).1 hbig (dvd_pred_of_certifies hq h).2

theorem prime_13090036741 : Nat.Prime 13090036741 :=
  prime_of_certifies (q := 421987) (a := 2) (fuel := 40) (by norm_num) (by norm_num) (by decide +kernel)

theorem prime_3819663927398918131021 : Nat.Prime 3819663927398918131021 := by
  have h₁ := dvd_pred_of_certifies (n := 3819663927398918131021) (a := 2) (fuel := 72) prime_13090036741
    (by decide +kernel)
  have h₂ := dvd_pred_of_certifies (n := 3819663927398918131021) (q := 755057) (a := 2) (fuel := 72) (by norm_num)
    (by decide +kernel)
  exact prime_of_large_divisor (f := 13090036741 * 755057) h₁.1 (by norm_num) fun r hr hrn =>
    Nat.Coprime.mul_dvd_of_dvd_of_dvd (by norm_num) (h₁.2 r hr hrn) (h₂.2 r hr hrn)

theorem prime_1125266252156850182658904441386709967 : Nat.Prime 1125266252156850182658904441386709967 :=
  prime_of_certifies (a := 2) (fuel := 128) prime_3819663927398918131021 (by norm_num) (by decide +kernel)

theorem prime_of_p_pred :
    Nat.Prime 15778400344354997994418419698270088123916926905054652752758194827714659 :=
  prime_of_certifies (a := 2) (fuel := 256) prime_1125266252156850182658904441386709967 (by norm_num)
    (by decide +kernel)

/-- The modulus p is prime (R6). -/
theorem p_prime : Nat.Prime Config.p :=
  prime_of_certifies (a := 2) (fuel := 384) prime_of_p_pred (by norm_num [Config.p]) (by decide +kernel)

end Sys2Proof
end

