-- ==== Sys2Proof/Laws/Step.lean ====
section
/-! SUPPORT. What a step can do: whose turn it is, what performing a host event keeps, what ending a command keeps. Later
proofs cite these lemmas and do not unfold the step. -/

namespace Sys2Proof.Machine

/-- Everything `nextMove` can answer: an idle block's move, the running command, or a host event while it runs. -/
theorem nextMove_cases (s : State) :
    (s.busy = false ∧ nextMove s = .host (idleMove s)) ∨
    (∃ t, RunsNext s t ∧ nextMove s = .run t) ∨
    (∃ e rest moves, s.busy = true ∧ s.sched = .host :: moves ∧ s.host = e :: rest ∧
      nextMove s = .host (hostWhileBusy { s with sched := moves, host := rest } e)) := by
  cases hb : s.busy with
  | false => exact .inl ⟨rfl, by simp [nextMove, hb]⟩
  | true =>
    refine .inr ?_
    match hs : s.sched, hh : s.host with
    | [], _ => exact .inl ⟨s, .unscheduled s hb hs, by simp [nextMove, hb, hs]⟩
    | .sequencer :: moves, _ => exact .inl ⟨_, .chosen s moves hb hs, by simp [nextMove, hb, hs]⟩
    | .host :: moves, [] => exact .inl ⟨_, .hostIdle s moves hb hs hh, by simp [nextMove, hb, hs, hh]⟩
    | .host :: moves, e :: rest => exact .inr ⟨e, rest, moves, rfl, rfl, rfl, by simp [nextMove, hb, hs, hh]⟩

/-- Everything an idle block can do: perform the event whose turn it is, or nothing. -/
theorem idleMove_cases {s : State} (hb : s.busy = false) :
    (∃ e t, PerformsNext s e t ∧ idleMove s = perform t e) ∨
    (s.stalled = [] ∧ s.host = [] ∧ idleMove s = .next s) := by
  match hs : s.stalled, hh : s.host with
  | e :: rest, _ => exact .inl ⟨e, _, .held s e rest hb hs, by simp [idleMove, hs]⟩
  | [], e :: rest => exact .inl ⟨e, _, .issued s e rest hb hs hh, by simp [idleMove, hs, hh]⟩
  | [], [] => exact .inr ⟨rfl, rfl, by simp [idleMove, hs, hh]⟩

/-- An address of the OM window is an offset between its ends (R42). -/
theorem region_om {s : State} {addr : HostAddr} {a : Nat} (h : region s addr = .om a) :
    a = addr.toNat ∧ Config.omBase ≤ a ∧ a < slotAddress s.nSlots := by
  simp only [region] at h
  split at h
  · cases h
  · split at h
    · rename_i hw
      cases h
      exact ⟨rfl, hw.1, hw.2⟩
    · cases h

/-- Writing a register keeps the parameters, operand memory and the host's lists. -/
theorem csrWrite_keeps (s : State) (offset : Nat) (v : Word) :
    (csrWrite s offset v).params = s.params ∧ (csrWrite s offset v).om = s.om ∧
      (csrWrite s offset v).sched = s.sched ∧ (csrWrite s offset v).host = s.host ∧
      (csrWrite s offset v).stalled = s.stalled ∧ (csrWrite s offset v).answers = s.answers := by
  unfold csrWrite
  split
  · unfold writeCtrl
    split <;> exact ⟨rfl, rfl, rfl, rfl, rfl, rfl⟩
  all_goals exact ⟨rfl, rfl, rfl, rfl, rfl, rfl⟩

/-- What every performed event keeps: the parameters and the host's lists but the answers. -/
theorem perform_keeps {s t : State} {e : HostEvent} (h : perform s e = .next t) :
    t.params = s.params ∧ t.sched = s.sched ∧ t.host = s.host ∧ t.stalled = s.stalled := by
  cases e with
  | hardReset => cases h; exact ⟨rfl, rfl, rfl, rfl⟩
  | read addr width =>
    simp only [perform, performRead] at h
    split at h
    · split at h
      · cases h; exact ⟨rfl, rfl, rfl, rfl⟩
      · cases h; exact ⟨rfl, rfl, rfl, rfl⟩
      · split at h
        · cases h; exact ⟨rfl, rfl, rfl, rfl⟩
        · cases h
    · cases h; exact ⟨rfl, rfl, rfl, rfl⟩
  | write addr width v =>
    simp only [perform, performWrite] at h
    split at h
    · split at h
      · cases h
        obtain ⟨h1, -, h3, h4, h5, -⟩ := csrWrite_keeps s _ v
        exact ⟨h1, h3, h4, h5⟩
      · cases h; exact ⟨rfl, rfl, rfl, rfl⟩
      · cases h; exact ⟨rfl, rfl, rfl, rfl⟩
    · cases h; exact ⟨rfl, rfl, rfl, rfl⟩

/-- What ending a command keeps, whichever way it ends. -/
theorem finish_keeps {opc : BitVec 8} {s t : State} {r : Except Stop Effect} (h : finish opc s r = .next t) :
    t.params = s.params ∧ t.irqEn = s.irqEn ∧ t.count = s.count ∧ t.cmd = s.cmd ∧ t.sched = s.sched ∧
      t.host = s.host ∧ t.stalled = s.stalled ∧ t.answers = s.answers ∧ t.busy = false ∧ t.done = true ∧
      t.countLatch = 0 := by
  match r, h with
  | .ok _, h => cases h; exact ⟨rfl, rfl, rfl, rfl, rfl, rfl, rfl, rfl, rfl, rfl, rfl⟩
  | .error (.raise _), h => cases h; exact ⟨rfl, rfl, rfl, rfl, rfl, rfl, rfl, rfl, rfl, rfl, rfl⟩

/-- A list command is its run, or SHAPE (R67). -/
theorem listCommand_cases (opc : BitVec 8) (s : State) (run : Host.Outcome State Fault Refusal) :
    (s.countLatch.toNat ≤ s.maxCount ∧ listCommand opc s run = run) ∨
    (s.maxCount < s.countLatch.toNat ∧
      listCommand opc s run = .next (s.failWith opc ⟨.shape, .none, 0, s.countLatch⟩)) := by
  by_cases h : s.countLatch.toNat > s.maxCount
  · exact .inr ⟨h, by simp [listCommand, checkShape, h, finish]⟩
  · exact .inl ⟨by omega, by simp [listCommand, checkShape, h]⟩

end Sys2Proof.Machine
end

