-- ==== Sys2Proof/Machine/HostFormat.lean ====
section
/-! DEFINITION. The byte encodings host software uses between slots and byte strings (R56 to R58). They are no block
operations (R4); no command calls them. -/

namespace Sys2Proof.Machine

/-- A number in big-endian order, zero-padded to `n` bytes (R56, R58). -/
def bigEndian : Nat → Nat → List Byte
  | 0, _ => []
  | n + 1, v => bigEndian n (v / 256) ++ [BitVec.ofNat 8 v]

/-- An Fp element as 48 bytes, from its plain value (R56). -/
def fpBytes (a : Fp) : List Byte := bigEndian 48 a.val

/-- Fp2 as 96 bytes, the higher-degree component first (R57). -/
def fp2Bytes (x : Fp2) : List Byte := fpBytes x.c1 ++ fpBytes x.c0

/-- Fp6 as 288 bytes (R57). -/
def fp6Bytes (x : Fp6) : List Byte := fp2Bytes x.c2 ++ fp2Bytes x.c1 ++ fp2Bytes x.c0

/-- Fp12 as 576 bytes (R57). -/
def fp12Bytes (x : Fp12) : List Byte := fp6Bytes x.c1 ++ fp6Bytes x.c0

/-- A scalar as 32 bytes (R58). -/
def scalarBytes (k : Nat) : List Byte := bigEndian 32 k

/-- Why a byte string is no Fp element (R56): the source's errors (a) and (b). -/
inductive FormatError where
  | malformed | outOfField
  deriving DecidableEq, Repr

/-- The number of a big-endian byte string. -/
def ofBigEndian (bs : List Byte) : Nat := bs.foldl (fun v b => 256 * v + b.toNat) 0

/-- Decoding 48 bytes (R56): an integer ≥ p is an out-of-field value, another length is malformed input. -/
def fpOfBytes (bs : List Byte) : Except FormatError Fp :=
  if bs.length = 48 then
    if h : ofBigEndian bs < Config.p then .ok ⟨ofBigEndian bs, h⟩ else .error .outOfField
  else .error .malformed

end Sys2Proof.Machine
end

