-- ==== Sys2Proof/Tests/Slice0.lean ====
section
/-! SUPPORT. Checks of the model on words and values that spec/ spells out, and a witness for the hypotheses of every
statement. Expected results are the examples of the rules and of 95_test_vectors.md. -/

namespace Sys2Proof.Tests

/- Long kernel evaluations, one after the other: each takes much memory. -/
set_option Elab.async false

open Sys2Proof.Machine

/-! ### States -/

/-- A running block with that memory and that latched COUNT. -/
def running (om : Memory) (count : Nat := 0) : State :=
  { State.reset.accept 0 with om := om, countLatch := BitVec.ofNat 32 count }

theorem fits_running {om : Memory} {count : Nat} {base : SlotAddr} {n : Nat} (h : base.toNat + n ≤ 64) :
    fits (running om count) base n = true := by
  have h64 : State.reset.nSlots = 64 := by decide +kernel
  exact decide_eq_true (h.trans_eq h64.symm)

/-- An idle block after a hard reset, with that memory and the host about to do `events`. -/
def idle (events : List HostEvent) (om : Memory := []) : State := { State.reset with host := events, om := om }

/-- A running block whose host is about to do `events`. -/
def crowded (events : List HostEvent) : State :=
  { State.reset.accept 0 with host := events, sched := [.host, .sequencer] }

/-- What a next state shows. -/
def see {α : Type} (f : State → α) (x : Host.Outcome State Fault Refusal) : Option α :=
  match x with
  | .next t => some (f t)
  | _ => none

/-- The slots from n on, k of them. -/
def slots (n k : Nat) (s : State) : List (Option SlotWord) := (List.range k).map fun j => s.slot (n + j)

/-- FLAG, the error code and ERRINFO. -/
def report (s : State) : Bool × ErrCode × ErrInfo := (s.flag, s.errCode, s.errInfo)

def m (n : Nat) : SlotWord := (mont (Fp.ofNat n)).slotWord
def fp2 (a b : Nat) : Fp2 := ⟨Fp.ofNat a, Fp.ofNat b⟩
def u : Fp2 := fp2 0 1
def v : Fp6 := ⟨Fp2.zero, Fp2.one, Fp2.zero⟩
def w : Fp12 := ⟨Fp6.zero, Fp6.one⟩

/-! ### WellFormed refuses what R73 reserves -/

theorem test_wellformed_ldc_index : WellFormed (.ldc 0 10) = false ∧ WellFormed (.ldc 0 9) = true := by decide
theorem test_wellformed_wnaf_low : WellFormed (.wnaf 0 0 1) = false ∧ WellFormed (.wnaf 0 0 2) = true := by decide
theorem test_wellformed_wnaf_high : WellFormed (.wnaf 0 0 9) = false ∧ WellFormed (.wnaf 0 0 8) = true := by decide
theorem test_wellformed_copy_frob_any :
    WellFormed (.copy 0 0 255) = true ∧ WellFormed (.fp2Frob 0 0 255) = true ∧ WellFormed (.fp12Frob 0 0 255) = true := by
  decide

/-! ### Decoding, from words written out by R65 and R72 -/

theorem test_decode_control :
    decode 0x0000000000000000 = .ok .nop ∧
    decode 0x000056781234C301 = .ok (.copy 0x1234 0x5678 0xC3) ∧
    decode 0x0000000012340702 = .ok (.ldc 0x1234 0x07) := by
  decide

theorem test_decode_fp :
    decode 0x9ABC567812340010 = .ok (.fpAdd 0x1234 0x5678 0x9ABC) ∧
    decode 0x9ABC567812340011 = .ok (.fpSub 0x1234 0x5678 0x9ABC) ∧
    decode 0x0000567812340012 = .ok (.fpDbl 0x1234 0x5678) ∧
    decode 0x0000567812340013 = .ok (.fpNeg 0x1234 0x5678) ∧
    decode 0x9ABC567812340014 = .ok (.fpMul 0x1234 0x5678 0x9ABC) ∧
    decode 0x0000567812340015 = .ok (.fpSqr 0x1234 0x5678) ∧
    decode 0x0000567812340016 = .ok (.fpTomont 0x1234 0x5678) ∧
    decode 0x0000567812340017 = .ok (.fpFrommont 0x1234 0x5678) ∧
    decode 0x0000567812340018 = .ok (.fpInv 0x1234 0x5678) ∧
    decode 0x0000567812340019 = .ok (.fpSqrt 0x1234 0x5678) ∧
    decode 0x000056780000001A = .ok (.fpIsqnr 0x5678) ∧
    decode 0x9ABC56780000001B = .ok (.fpEq 0x5678 0x9ABC) ∧
    decode 0x000056780000001C = .ok (.fpIszero 0x5678) := by
  decide

theorem test_decode_fp2 :
    decode 0x9ABC567812340020 = .ok (.fp2Add 0x1234 0x5678 0x9ABC) ∧
    decode 0x9ABC567812340021 = .ok (.fp2Sub 0x1234 0x5678 0x9ABC) ∧
    decode 0x0000567812340022 = .ok (.fp2Dbl 0x1234 0x5678) ∧
    decode 0x0000567812340023 = .ok (.fp2Neg 0x1234 0x5678) ∧
    decode 0x9ABC567812340024 = .ok (.fp2Mul 0x1234 0x5678 0x9ABC) ∧
    decode 0x0000567812340025 = .ok (.fp2Sqr 0x1234 0x5678) ∧
    decode 0x0000567812340026 = .ok (.fp2Inv 0x1234 0x5678) ∧
    decode 0x0000567812340027 = .ok (.fp2Conj 0x1234 0x5678) ∧
    decode 0x000056781234C328 = .ok (.fp2Frob 0x1234 0x5678 0xC3) ∧
    decode 0x9ABC567800000029 = .ok (.fp2Eq 0x5678 0x9ABC) := by
  decide

theorem test_decode_fp6 :
    decode 0x9ABC567812340030 = .ok (.fp6Add 0x1234 0x5678 0x9ABC) ∧
    decode 0x9ABC567812340031 = .ok (.fp6Sub 0x1234 0x5678 0x9ABC) ∧
    decode 0x0000567812340032 = .ok (.fp6Dbl 0x1234 0x5678) ∧
    decode 0x0000567812340033 = .ok (.fp6Neg 0x1234 0x5678) ∧
    decode 0x9ABC567812340034 = .ok (.fp6Mul 0x1234 0x5678 0x9ABC) ∧
    decode 0x0000567812340035 = .ok (.fp6Sqr 0x1234 0x5678) ∧
    decode 0x0000567812340036 = .ok (.fp6Inv 0x1234 0x5678) ∧
    decode 0x000056781234C337 = .ok (.fp6Frob 0x1234 0x5678 0xC3) ∧
    decode 0x9ABC567812340038 = .ok (.fp6Mulby01 0x1234 0x5678 0x9ABC) ∧
    decode 0x9ABC567812340039 = .ok (.fp6Mulby1 0x1234 0x5678 0x9ABC) ∧
    decode 0x9ABC56780000003A = .ok (.fp6Eq 0x5678 0x9ABC) := by
  decide

theorem test_decode_fp12 :
    decode 0x9ABC567812340040 = .ok (.fp12Add 0x1234 0x5678 0x9ABC) ∧
    decode 0x9ABC567812340041 = .ok (.fp12Sub 0x1234 0x5678 0x9ABC) ∧
    decode 0x0000567812340042 = .ok (.fp12Dbl 0x1234 0x5678) ∧
    decode 0x0000567812340043 = .ok (.fp12Neg 0x1234 0x5678) ∧
    decode 0x9ABC567812340044 = .ok (.fp12Mul 0x1234 0x5678 0x9ABC) ∧
    decode 0x0000567812340045 = .ok (.fp12Sqr 0x1234 0x5678) ∧
    decode 0x0000567812340046 = .ok (.fp12Inv 0x1234 0x5678) ∧
    decode 0x0000567812340047 = .ok (.fp12Conj 0x1234 0x5678) ∧
    decode 0x000056781234C348 = .ok (.fp12Frob 0x1234 0x5678 0xC3) ∧
    decode 0x9ABC567812340049 = .ok (.fp12Mulby014 0x1234 0x5678 0x9ABC) ∧
    decode 0x9ABC56781234004A = .ok (.fp12Mulby034 0x1234 0x5678 0x9ABC) ∧
    decode 0x000056781234004B = .ok (.fp12Csqr 0x1234 0x5678) ∧
    decode 0x9ABC56780000004C = .ok (.fp12Eq 0x5678 0x9ABC) := by
  decide

theorem test_decode_g1 :
    decode 0x9ABC567812340050 = .ok (.g1Add 0x1234 0x5678 0x9ABC) ∧
    decode 0x9ABC567812340051 = .ok (.g1Addm 0x1234 0x5678 0x9ABC) ∧
    decode 0x0000567812340052 = .ok (.g1Dbl 0x1234 0x5678) ∧
    decode 0x0000567812340053 = .ok (.g1Neg 0x1234 0x5678) ∧
    decode 0x9ABC567812340054 = .ok (.g1Sub 0x1234 0x5678 0x9ABC) ∧
    decode 0x9ABC567812340055 = .ok (.g1Mul 0x1234 0x5678 0x9ABC) ∧
    decode 0x9ABC567800000056 = .ok (.g1Eq 0x5678 0x9ABC) ∧
    decode 0x0000567800000057 = .ok (.g1Iszero 0x5678) ∧
    decode 0x0000567800000058 = .ok (.g1Oncurve 0x5678) ∧
    decode 0x0000567800000059 = .ok (.g1Insub 0x5678) ∧
    decode 0x000056780000005A = .ok (.g1Check 0x5678) ∧
    decode 0x000056781234005B = .ok (.g1Affine 0x1234 0x5678) ∧
    decode 0x000056781234005C = .ok (.g1Affb 0x1234 0x5678) ∧
    decode 0x9ABC56781234005D = .ok (.g1Msm 0x1234 0x5678 0x9ABC) ∧
    decode 0x000056780000005E = .ok (.g1Isaffine 0x5678) ∧
    decode 0x9ABC56781234005F = .ok (.g1Mulct 0x1234 0x5678 0x9ABC) := by
  decide

theorem test_decode_g2 :
    decode 0x9ABC567812340060 = .ok (.g2Add 0x1234 0x5678 0x9ABC) ∧
    decode 0x9ABC567812340061 = .ok (.g2Addm 0x1234 0x5678 0x9ABC) ∧
    decode 0x0000567812340062 = .ok (.g2Dbl 0x1234 0x5678) ∧
    decode 0x0000567812340063 = .ok (.g2Neg 0x1234 0x5678) ∧
    decode 0x9ABC567812340064 = .ok (.g2Sub 0x1234 0x5678 0x9ABC) ∧
    decode 0x9ABC567812340065 = .ok (.g2Mul 0x1234 0x5678 0x9ABC) ∧
    decode 0x9ABC567800000066 = .ok (.g2Eq 0x5678 0x9ABC) ∧
    decode 0x0000567800000067 = .ok (.g2Iszero 0x5678) ∧
    decode 0x0000567800000068 = .ok (.g2Oncurve 0x5678) ∧
    decode 0x0000567800000069 = .ok (.g2Insub 0x5678) ∧
    decode 0x000056780000006A = .ok (.g2Check 0x5678) ∧
    decode 0x000056781234006B = .ok (.g2Affine 0x1234 0x5678) ∧
    decode 0x000056781234006C = .ok (.g2Affb 0x1234 0x5678) ∧
    decode 0x9ABC56781234006D = .ok (.g2Msm 0x1234 0x5678 0x9ABC) ∧
    decode 0x000056780000006E = .ok (.g2Isaffine 0x5678) ∧
    decode 0x9ABC56781234006F = .ok (.g2Mulct 0x1234 0x5678 0x9ABC) := by
  decide

theorem test_decode_pairing :
    decode 0x9ABC567812340070 = .ok (.miller 0x1234 0x5678 0x9ABC) ∧
    decode 0x0000567812340071 = .ok (.finalexp 0x1234 0x5678) ∧
    decode 0x9ABC567812340072 = .ok (.pair 0x1234 0x5678 0x9ABC) ∧
    decode 0x9ABC567800000073 = .ok (.pcheck 0x5678 0x9ABC) ∧
    decode 0x0000567812340074 = .ok (.cexp 0x1234 0x5678) := by
  decide

theorem test_decode_scalar :
    decode 0x0000567812340580 = .ok (.wnaf 0x1234 0x5678 0x05) ∧
    decode 0x0000567812340081 = .ok (.fromwnaf 0x1234 0x5678) := by
  decide

/-- One word of each family, bit by bit: B, A, D, AUX, OPC. -/
theorem test_decode_bits :
    decode 0b0000000000000000_0000000000000000_0000000000001010_00000010_00000001 = .ok (.copy 10 0 2) ∧
    decode 0b0000000000000001_0000000000000000_0000000000000010_00000000_00010100 = .ok (.fpMul 2 0 1) ∧
    decode 0b0000000000000000_0000000000000010_0000000000000100_00000001_00101000 = .ok (.fp2Frob 4 2 1) ∧
    decode 0b0000000000001100_0000000000000000_0000000000000110_00000000_00111000 = .ok (.fp6Mulby01 6 0 12) ∧
    decode 0b0000000000000000_0000000000011000_0000000000001100_00000000_01001011 = .ok (.fp12Csqr 12 24) ∧
    decode 0b0000000000101000_0000000000001010_0000000000000000_00000000_01011101 = .ok (.g1Msm 0 10 40) ∧
    decode 0b0000000000000000_0000000000000110_0000000000000000_00000000_01101010 = .ok (.g2Check 6) ∧
    decode 0b0000000000100001_0000000000000011_0000000000000000_00000000_01110011 = .ok (.pcheck 3 33) ∧
    decode 0b0000000000000000_0000000000000011_0000000000010100_00000100_10000000 = .ok (.wnaf 20 3 4) := by
  decide

theorem test_decode_table_word : decodeTableWord 64 0x0001000000020014 = some (.fpMul 2 0 1) := by decide

/-- The unassigned opcodes at the ends of each range of R73. -/
theorem test_unassigned_opcodes :
    ([0x03, 0x0F, 0x1D, 0x1F, 0x2A, 0x2F, 0x3B, 0x3F, 0x4D, 0x4F, 0x75, 0x7F, 0x82, 0xFF] : List Word).all
      (fun x => decide (decode x = .error .illegalOpcode)) = true := by
  decide

/-- RESERVED_FIELD names AUX, then D, then A, then B (R175). -/
theorem test_reserved_field_order :
    decode 0x0001000100010100 = .error (.reservedField .none) ∧ decode 0x0001000100010000 = .error (.reservedField .d) ∧
    decode 0x0001000100000000 = .error (.reservedField .a) ∧ decode 0x0001000000000000 = .error (.reservedField .b) ∧
    decode 0x0000000000000A02 = .error (.reservedField .none) ∧ decode 0x0000000000000180 = .error (.reservedField .none) ∧
    decode 0x0000000000000980 = .error (.reservedField .none) ∧ decode 0x0000000000000110 = .error (.reservedField .none) := by
  decide

/-- The assembly forms of R75 and two pseudo-commands of R76. -/
theorem test_assembly :
    assembly (.fpMul 2 0 1) = "FP.MUL s2, s0, s1" ∧ assembly (.copy 10 0 2) = "COPY s10, s0, #3" ∧
    assembly .nop = "NOP" ∧ encode (pseudoG2Mov 1 2) = 0x0000000200010501 ∧ encode (pseudoLdGtOne 0) = 0x0000000000000602 := by
  decide +kernel

/-! ### Constants -/

theorem test_one_m :
    m 1 = 0x15f65ec3fa80e4935c071a97a256ec6d77ce5853705257455f48985753c758baebf4000bc40c0002760900000002fffd := by
  decide +kernel

theorem test_p_limbs : ofLimbs Config.pLimbs = Config.p := by decide +kernel
theorem test_ninv : Config.ninv * Config.p % 2 ^ 64 = 2 ^ 64 - 1 := by decide +kernel
theorem test_rsq : Config.rsq = Config.radix * Config.radix % Config.p := by decide +kernel

/-! ### One command each, from the examples of the rules -/

/-- R169: `RUN 0x0` leaves STATUS = 0x2. -/
theorem test_nop : see statusWord (exec .nop (running [])) = some 0x2 := by decide

/-- R170: overlapping ranges copy as memmove, and the words are raw. -/
theorem test_copy_overlap :
    see (slots 0 3) (exec (.copy 1 0 1) (running (memFrom 0 [1, BitVec.allOnes 384]))) =
      some [some 1, some 1, some (BitVec.allOnes 384)] := by
  decide +kernel

/-- R171: `LDC s0, #1` writes ONE_M, `LDC #9` the plain group order. -/
theorem test_ldc :
    see (slots 0 1) (exec (.ldc 0 1) (running [])) = some [some (m 1)] ∧
    see (slots 63 1) (exec (.ldc 63 9) (running [])) = some [some (BitVec.ofNat 384 Config.r)] := by
  decide +kernel

theorem test_ldc_past_the_end :
    see report (exec (.ldc 62 4) (running [])) = some (false, .addressRange, ⟨0x02, .d, 62, 0⟩) := by
  decide +kernel

/-- R81, R82: mont(2) + mont(3) and mont(2) − mont(3). -/
theorem test_fp_add_sub :
    see (slots 2 1) (exec (.fpAdd 2 0 1) (running (memFrom 0 [m 2, m 3]))) =
      some [some 0x05cb922afe84dc779fb4e61d1e83eac5c52a8b8d6387695d3fa7af30c820e316211400400eec000d6631000000105545] ∧
    see (slots 0 1) (exec (.fpSub 0 0 1) (running (memFrom 0 [m 2, m 3]))) =
      some [some 0x040ab3263eff0206ef148d1ea0f4c069eca8f3318332bb7a07e83a49a2e99d6932b7fff2ed47fffd43f5fffffffcaaae] := by
  decide +kernel

/-- R85, R86. -/
theorem test_fp_mul_sqr :
    see (slots 2 1) (exec (.fpMul 2 0 1) (running (memFrom 0 [m 2, m 3]))) =
      some [some 0x01c0df04bf85da70b0a058fe7d8f2a5bd881985be054ade337bf74e7253745acee5c004d21a40010223b00000013aa97] ∧
    see (slots 2 1) (exec (.fpSqr 2 0) (running (memFrom 0 [m 2]))) =
      some [some 0x09d645513d83de7e8ec9733bbf78ab2fb1d37ebee6ba24d7478fe97a6b0a807f53cc0032fc34000aaa270000000cfff3] := by
  decide +kernel

/-- R83, R84: NEG(0) = 0, never p. -/
theorem test_fp_dbl_neg :
    see (slots 1 1) (exec (.fpDbl 1 0) (running (memFrom 0 [m 3]))) = some [some (m 6)] ∧
    see (slots 1 1) (exec (.fpNeg 1 0) (running (memFrom 0 [0]))) = some [some 0] ∧
    see (slots 1 1) (exec (.fpNeg 1 0) (running (memFrom 0 [m 1]))) = some [some (m (Config.p - 1))] := by
  decide +kernel

/-- R87, R88: TOMONT(6), FROMMONT(mont(6)), and p is refused. -/
theorem test_fp_conversions :
    see (slots 1 1) (exec (.fpTomont 1 0) (running (memFrom 0 [6]))) = some [some (m 6)] ∧
    see (slots 1 1) (exec (.fpFrommont 1 0) (running (memFrom 0 [m 6]))) = some [some 6] ∧
    see report (exec (.fpTomont 1 0) (running (memFrom 0 [BitVec.ofNat 384 Config.p]))) =
      some (false, .outOfField, ⟨0x16, .a, 0, 0⟩) := by
  decide +kernel

/-- R89: INV(mont(2)) with FLAG 1, INV(0) = 0 with FLAG 0. -/
theorem test_fp_inv :
    see (fun t => (slots 1 1 t, t.flag)) (exec (.fpInv 1 0) (running (memFrom 0 [m 2]))) =
      some ([some 0x17fbb8571a006596d3916126f2d14ca26e22d1ec31ebb502633cb57c253c276f855000053ab000011804000000015554], true) ∧
    see (fun t => (slots 1 1 t, t.flag)) (exec (.fpInv 1 0) (running (memFrom 0 [0]))) = some ([some 0], false) := by
  decide +kernel

/-- R90: SQRT(mont(4)) is mont(p − 2); SQRT(mont(p − 1)) is NONSQUARE and writes nothing. -/
theorem test_fp_sqrt :
    see (fun t => (slots 1 1 t, t.flag)) (exec (.fpSqrt 1 0) (running (memFrom 0 [m 4]))) =
      some ([some 0x0815664c7dfe040dde291a3d41e980d3d951e663066576f40fd0749345d33ad2656fffe5da8ffffa87ebfffffff9555c], true) ∧
    see (fun t => (slots 1 1 t, report t)) (exec (.fpSqrt 1 0) (running (memFrom 0 [m (Config.p - 1)]))) =
      some ([none], false, .nonsquare, ⟨0x19, .a, 0, 0⟩) := by
  decide +kernel

/-- R91, R92, R93: ISQNR(0) gives 1 and ISQNR(mont(4)) 0. -/
theorem test_fp_tests :
    see (·.flag) (exec (.fpIsqnr 0) (running (memFrom 0 [0]))) = some true ∧
    see (·.flag) (exec (.fpIsqnr 0) (running (memFrom 0 [m 4]))) = some false ∧
    see (·.flag) (exec (.fpEq 0 0) (running (memFrom 0 [m 4]))) = some true ∧
    see (·.flag) (exec (.fpIszero 0) (running (memFrom 0 [m 1]))) = some false := by
  decide +kernel

/-- R103, R104: (1 + 2u)(3 + 4u) = (p − 5) + 10u and (1 + u)² = 2u. -/
theorem test_fp2_mul_sqr :
    (fp2 1 2).mul (fp2 3 4) = fp2 (Config.p - 5) 10 ∧
    see (slots 0 2) (exec (.fp2Sqr 0 0) (running (memFrom 0 [m 1, m 1]))) = some [some 0, some (m 2)] := by
  decide +kernel

/-- R102, R106, R107. -/
theorem test_fp2_neg_conj_frob :
    (fp2 1 2).neg = fp2 (Config.p - 1) (Config.p - 2) ∧ (fp2 1 2).conj = fp2 1 (Config.p - 2) ∧
    (fp2 1 2).frob 255 = fp2 1 (Config.p - 2) ∧ (fp2 1 2).frob 2 = fp2 1 2 := by
  decide +kernel

/-- R113, R114, R115, R117: v·v² = ξ, (v²)² = ξ·v, INV(v) = ξ^(−1)·v², MULBY1(v², 1) = ξ. -/
theorem test_fp6_products :
    v.mul v.sqr = ⟨fp2 1 1, Fp2.zero, Fp2.zero⟩ ∧ v.sqr.sqr = ⟨Fp2.zero, fp2 1 1, Fp2.zero⟩ ∧
    v.inv = ⟨Fp2.zero, Fp2.zero, (fp2 1 1).inv⟩ ∧ v.sqr.mulBy1 Fp2.one = ⟨fp2 1 1, Fp2.zero, Fp2.zero⟩ ∧
    Fp6.one.mulBy01 Fp2.zero Fp2.one = v ∧ v.frob 1 = ⟨Fp2.zero, ⟨Fp.zero, frobZ1⟩, Fp2.zero⟩ ∧ v.frob 6 = v := by
  decide +kernel

/-- R124, R126, R128 to R131: w·w = v, INV(w) = v^(−1)·w, FROB(w, 6) = −w, MULBY034(1, 0, 1, 0) = w, CSQR(1) = 1. -/
theorem test_fp12_products :
    w.mul w = ⟨v, Fp6.zero⟩ ∧ w.inv = ⟨Fp6.zero, v.inv⟩ ∧ w.frob 6 = w.neg ∧ w.frob 1 = ⟨Fp6.zero, ⟨frobGammaW1, Fp2.zero, Fp2.zero⟩⟩ ∧
    Fp12.one.mulBy034 Fp2.zero Fp2.one Fp2.zero = w ∧ Fp12.one.mulBy014 Fp2.one Fp2.zero Fp2.zero = Fp12.one ∧
    Fp12.one.csqr = Fp12.one ∧ w.csqr ≠ w.sqr := by
  decide +kernel

/-- R141: the triple of DBL(G), as plain values; ADD(G, G) is the same. -/
theorem test_g1_dbl_add :
    curveG1.dblF g1Generator =
      ⟨Fp.ofNat 0x034a6fce17d489676fb0a38892584cb4720682fe47c6dc2e058811e7ba4454300c078d0d7d8a147a294b8758ef846ccb,
       Fp.ofNat 0x14e4b429606d02bc3c604c0410e5fc01d6093a00bb3e2bc9395952af0b6a0dbd599a8782a1bea48a2aa4d8e1b1df7ca5,
       Fp.ofNat 0x1167e903c75541e3413c61dae83b15c9f9ebc12baba015ec01b63196580967dba0798e89451115c8195446528d8bcfc2⟩ ∧
    curveG1.addF g1Generator g1Generator = curveG1.dblF g1Generator ∧
    curveG1.addF g1Generator (curveG1.negPoint g1Generator) = curveG1.identity := by
  decide +kernel

/-- R144, R151: the affine x of [5]G. -/
theorem test_g1_mul_affine :
    (curveG1.affine (curveG1.mulF g1Generator 5)).x =
      Fp.ofNat 0x10e7791fb972fe014159aa33a98622da3cdc98ff707965e536d8636b5fcc5ac7a91a8c46e59a00dca575af0f18fb13dc := by
  decide +kernel

/-- R140: an ADDM operand that is not affine is NOT_AFFINE at its Z slot. -/
theorem test_g1_addm_not_affine :
    see report (exec (.g1Addm 6 0 3) (running (memFrom 0 (layoutG1.words g1Generator ++ [m 1, m 1, m 2])))) =
      some (false, .notAffine, ⟨0x51, .b, 5, 0⟩) := by
  decide +kernel

/-- R148, R149, R150: (1, 2, 1) is OFF_CURVE; (4, y, 1) is WRONG_SUBGROUP. -/
theorem test_g1_check :
    see report (exec (.g1Check 0) (running (memFrom 0 [m 1, m 2, m 1]))) =
      some (false, .offCurve, ⟨0x5A, .a, 0, 0⟩) ∧
    see report (exec (.g1Check 0) (running (memFrom 0
      [m 4, m 0x0a989badd40d6212b33cffc3f3763e9bc760f988c9926b26da9dd85e928483446346b8ed00e1de5d5ea93e354abe706c, m 1]))) =
      some (false, .wrongSubgroup, ⟨0x5A, .a, 0, 0⟩) := by
  decide +kernel

/-- R152, R164: empty lists at the end of operand memory. -/
theorem test_empty_lists :
    see (fun t => t.om) (exec (.g1Affb 64 64) (running [])) = some [] ∧
    see (·.flag) (exec (.pcheck 64 64) (running [])) = some true := by
  decide +kernel

/-- R67: a count above MAX_COUNT is SHAPE with INDEX = n, before any extent is looked at. -/
theorem test_shape :
    see report (exec (.g1Msm 65535 65535 65535) (running [] 5)) = some (false, .shape, ⟨0x5D, .none, 0, 5⟩) := by
  decide +kernel

/-- R165: the digits of 7 at width 2, 255 at width 4, 0x1234 at width 3. -/
theorem test_wnaf_digits :
    wnafDigitsOf 2 7 = [-1, 0, 0, 1] ∧ wnafDigitsOf 4 255 = [-1, 0, 0, 0, 0, 0, 0, 0, 1] ∧
    wnafDigitsOf 3 0x1234 = [0, 0, -3, 0, 0, 0, 1, 0, 0, 1, 0, 0, 1] ∧ wnafDigitsOf 5 0 = [] ∧
    (wnafDigitsOf 2 (2 ^ 256 - 1)).length = 257 := by
  decide +kernel

/-- R165, R166: WNAF writes the digits and RESULT; the digits sum to 7; a negative sum is OUT_OF_FIELD. -/
theorem test_wnaf_fromwnaf :
    see (·.result) (exec (.wnaf 1 0 2) (running (memFrom 0 [7]))) = some 4 ∧
    packDigits 6 (digitBytes [-1, 0, 0, 1]) = [0x010000FF, 0, 0, 0, 0, 0] ∧
    digitSum (digitBytes [-1, 0, 0, 1]) = 7 ∧
    see report (exec (.fromwnaf 0 0) (running (memFrom 0 [0xFF, 0, 0, 0, 0, 0]))) =
      some (false, .outOfField, ⟨0x81, .a, 0, 0⟩) := by
  decide +kernel

/-- R156: 68 line triples. -/
theorem test_line_count : (lineCoefficients Fp2.one Fp2.one).length = Config.nLine := by decide +kernel

/-- R78 against R77 on one pair of words. -/
theorem test_cios : cios (Config.p - 1) (Config.p - 2) = montMul (Config.p - 1) (Config.p - 2) := by decide +kernel

/-- R56, R57. -/
theorem test_bytes :
    fpBytes (Fp.ofNat 0x1234) = List.replicate 46 0 ++ [0x12, 0x34] ∧ (fp12Bytes Fp12.one).length = 576 ∧
    (match fpOfBytes (bigEndian 48 Config.p) with | .error e => decide (e = .outOfField) | .ok _ => false) = true := by
  decide +kernel

/-! ### One step of the host port each -/

/-- R44, R45: limb 5 of slot 1 is at 0x100058; the write leaves the other limbs. -/
theorem test_limb_write :
    see (slots 1 1) (step (idle [.write 0x100058 8 0xAB] (memFrom 1 [1]))) =
      some [some (BitVec.ofNat 384 (0xAB * 2 ^ 320 + 1))] := by
  decide +kernel

theorem test_limb_read :
    see (·.answers) (step (idle [.read 0x100030 8] (memFrom 1 [0x1122334455667788]))) = some [.data 0x1122334455667788] ∧
    step (idle [.read 0x100000 8] (memFrom 1 [1])) = .fault (.unwrittenSlot 0) := by
  constructor
  · decide +kernel
  · rfl

/-- R69 step 1: the write of CMD latches the word and COUNT. -/
theorem test_accept :
    see (fun t => (t.busy, t.cmd, t.countLatch, statusWord t))
      (step { idle [.write 0x040 8 0x72] with count := 3, done := true }) = some (true, 0x72, 3, 0x1) := by
  decide

/-- R48: a COUNT write of a busy block is held, a STATUS read is answered. -/
theorem test_stall :
    see (fun t => (t.stalled, t.answers)) (step (crowded [.write 0x030 8 1])) = some ([.write 0x030 8 1], []) ∧
    see (fun t => (t.stalled, t.answers)) (step (crowded [.read 0x018 8])) = some ([], [.data 1]) := by
  decide +kernel

/-- R29: DONE and STICKY_ERR are cleared by writing 1 to them; the other bits are not. -/
theorem test_status_w1c :
    see (fun t => (t.done, t.stickyErr, t.flag))
      (step { idle [.write 0x018 8 0x16] with done := true, stickyErr := true, flag := true }) =
      some (false, false, true) ∧
    see (fun t => (t.done, t.stickyErr)) (step { idle [.write 0x018 8 0x10] with done := true, stickyErr := true }) =
      some (true, false) := by
  decide

/-- R182: SRST aborts the running command; the held CMD write is accepted next. -/
theorem test_soft_reset :
    see (fun t => (t.busy, t.done, t.stalled)) (step { crowded [.write 0x010 8 2] with stalled := [hostSubmit 0] }) =
      some (false, false, [hostSubmit 0]) ∧
    see (·.busy) (step { State.reset with stalled := [hostSubmit 0] }) = some true := by
  decide

/-- R177, R42: a misaligned access and a reserved address. -/
theorem test_bus_error :
    see (·.answers) (step (idle [.read 0x001 8])) = some [.busError] ∧
    see (·.answers) (step (idle [.write 0x008 4 1])) = some [.busError] ∧
    see (·.answers) (step (idle [.read 0x100C00 8])) = some [.data 0] := by
  decide

/-- The command word that State.withFetchWord places is what the next step runs. -/
theorem test_fetch_word :
    see (slots 0 1) (step (State.reset.withFetchWord 64 0x102)) = some [some (m 1)] := by
  decide +kernel

/-! ### Witnesses: a state and operands for the hypotheses of every statement, at the ends of their ranges -/

/-- A running block whose latched word is w. -/
def latched (x : Word) : State := { State.reset.accept x with sched := [] }

theorem witness_DecodeEncodeRoundTrip :
    WellFormed (.ldc 0xFFFF 9) = true ∧ WellFormed (.wnaf 0 0xFFFF 2) = true ∧ WellFormed (.wnaf 0 0 8) = true := by decide

theorem witness_DecodedWordIsTheEncoding :
    decode 0x00000000FFFF0902 = .ok (.ldc 0xFFFF 9) ∧ decode 0x0000FFFF00000880 = .ok (.wnaf 0 0xFFFF 8) := by decide

theorem witness_MaskAndMatchSeparateOpcodes :
    decode 0x0001000000020014 = .ok (.fpMul 2 0 1) ∧
    (opcOf 0x0001000000000012 = opcode (.fpDbl 0 0) ∧ 0x0001000000000012 &&& maskOf (.fpDbl 0 0) ≠ matchOf (.fpDbl 0 0)) ∧
    0x0 &&& maskOf .nop = matchOf .nop := by
  decide

theorem witness_UnassignedAndReservedWordsAreRejected :
    ([0x02, 0x10, 0x1C, 0x20, 0x29, 0x30, 0x3A, 0x40, 0x4C, 0x50, 0x74, 0x81] : List Word).all
      (fun x => decide (decode x ≠ .error .illegalOpcode)) = true ∧
    (opcOf 0xA02 = 0x02 ∧ 10 ≤ (auxOf 0xA02).toNat) ∧ (opcOf 0x180 = 0x80 ∧ (auxOf 0x180).toNat < 2) ∧
    (opcOf 0x980 = 0x80 ∧ 8 < (auxOf 0x980).toNat) ∧
    (opcOf 0x110 = opcode (.fpAdd 0 0 0) ∧ (form (.fpAdd 0 0 0)).aux = none ∧ auxOf 0x110 ≠ 0) ∧
    decode 0x03 = .error .illegalOpcode ∧ decode 0xA02 = .error (.reservedField .none) := by
  decide

theorem witness_RunsNext_unscheduled : RunsNext (latched 0x03) (latched 0x03) := .unscheduled _ rfl rfl

theorem witness_RunsNext_chosen :
    RunsNext { latched 0x0 with sched := [.sequencer] } { latched 0x0 with sched := [] } := .chosen _ _ rfl rfl

theorem witness_RunsNext_hostIdle :
    RunsNext { latched 0x0 with sched := [.host] } { latched 0x0 with sched := [] } := .hostIdle _ _ rfl rfl rfl

theorem witness_StepRunsTheLatchedCommand :
    decode (latched 0x0).cmd = .ok .nop ∧ decode (latched 0x03).cmd = .error .illegalOpcode ∧
    decodeTableWord 64 0x102 = some (.ldc 0 1) ∧ decodeTableWord 8 0x102 = some (.ldc 0 0) := by
  decide

theorem witness_RejectedWordRecordsItsError :
    decode (latched 0xFF).cmd = .error .illegalOpcode ∧ decode (latched 0x0001000000010000).cmd = .error (.reservedField .d) ∧
    decode (latched 0x0001000100000000).cmd = .error (.reservedField .a) ∧
    decode (latched 0x0001000000010012).cmd = .error (.reservedField .b) ∧
    decode (latched 0x0001000100000A02).cmd = .error (.reservedField .none) ∧
    decode (latched 0x0001000000000180).cmd = .error (.reservedField .none) ∧
    decode (latched 0x0001000000000980).cmd = .error (.reservedField .none) := by
  decide

theorem witness_CommandWriteIsAccepted_issued :
    (idle [hostSubmit 0x72]).busy = false ∧
      PerformsNext (idle [hostSubmit 0x72]) (.write 0x040 8 0x72) { idle [hostSubmit 0x72] with host := [] } :=
  ⟨rfl, .issued _ _ _ rfl rfl rfl⟩

theorem witness_CommandWriteIsAccepted_held :
    PerformsNext { State.reset with stalled := [hostSubmit 0x72] } (.write 0x040 8 0x72)
      { State.reset with stalled := [] } :=
  .held _ _ _ rfl rfl

theorem witness_EveryCommandEndsOnce :
    accepted (running []) = true ∧ see (·.errCode) (exec .nop (running [])) = some .none ∧
    see (·.errCode) (exec (.ldc 64 0) (running [])) = some .addressRange := by
  decide +kernel

theorem witness_OnlyUnwrittenSourcesFault : exec (.fpDbl 0 63) (running []) = .fault (.unwrittenSlot 63) := rfl

theorem witness_CommandFrame :
    see (·.errCode) (exec (.ldc 1 1) (running [])) = some .none ∧
    outsideDest (running []) (.ldc 1 1) (slotAddress 1 - 1) = true ∧
    outsideDest (running []) (.ldc 1 1) (slotAddress 1) = false ∧
    outsideDest (running []) (.ldc 1 1) (slotAddress 2) = true ∧ (form (.fpEq 0 0)).d = none := by
  decide +kernel

theorem witness_FlagAndResultComeFromTheirCommands :
    accepted (running []) = true ∧ setsFlag .nop = false ∧ setsFlag (.fpInv 0 0) = true ∧
    see (·.errCode) (exec .nop (running [])) = some .none ∧
    see (·.errCode) (exec (.ldc 64 0) (running [])) = some .addressRange := by
  decide +kernel

theorem witness_ResultsDependOnlyOnOperands :
    accepted (running []) = true ∧ accepted { running [] with irqEn := true, stickyErr := true } = true ∧
    sameInputs (running []) { running [] with irqEn := true, stickyErr := true } :=
  ⟨rfl, rfl, rfl, rfl, rfl⟩

theorem witness_StepKeepsInvariant_busy : Inv (running []) ∧ step (running []) = .next ((running []).succeed {}) :=
  ⟨⟨by decide, by decide, by decide +kernel, by decide, by decide, by decide, by decide, by decide⟩, rfl⟩

theorem witness_StepKeepsInvariant_held :
    Inv { running [] with stalled := [.read 0x100BF8 8] } :=
  ⟨by decide, by decide, by decide +kernel, by decide, by decide, by decide, by decide, by decide +kernel⟩

theorem witness_ResetStateIsAsSpecified :
    (64 ≤ 64 ∧ 64 ≤ 65536 ∧ 1 ≤ 1 ∧ 1 < 2 ^ 32) ∧ (64 ≤ 65536 ∧ 65536 ≤ 65536 ∧ 1 ≤ 2 ^ 32 - 1 ∧ 2 ^ 32 - 1 < 2 ^ 32) ∧
    (0x010 ≠ 0x000 ∧ 0x010 ≠ 0x008) := by
  decide

theorem witness_BusyBlockBecomesIdle :
    (running []).busy = true ∧ (crowded [.read 0x018 8]).busy = true ∧ (crowded [.read 0x018 8]).sched.length = 2 := by
  decide

theorem witness_ListCountIsChecked :
    (isListCommand (.g1Affb 0 0) = true ∧ isListCommand (.g1Msm 0 0 0) = true ∧ isListCommand (.g2Affb 0 0) = true ∧
      isListCommand (.g2Msm 0 0 0) = true ∧ isListCommand (.miller 0 0 0) = true ∧ isListCommand (.pair 0 0 0) = true ∧
      isListCommand (.pcheck 0 0) = true) ∧
    (running [] 5).maxCount < (running [] 5).countLatch.toNat ∧ isListCommand .nop = false ∧
    (running []).countLatch = 0 ∧ extentsOk (running []) (.g1Affb 64 64) = true ∧
    extentsOk (running []) (.g2Affb 64 64) = true ∧ extentsOk (running []) (.g1Msm 61 64 64) = true ∧
    extentsOk (running []) (.g2Msm 58 64 64) = true ∧ extentsOk (running []) (.miller 52 64 64) = true ∧
    extentsOk (running []) (.pair 52 64 64) = true ∧ extentsOk (running []) (.pcheck 64 64) = true := by
  decide +kernel

theorem witness_OperandPastTheEndIsAddressRange :
    (usesOf (running []) (.g1Add 61 62 65535) =
        [⟨.d, 61, 1, 3, .result⟩] ++ ⟨.a, 62, 1, 3, .field⟩ :: [⟨.b, 65535, 1, 3, .field⟩] ∧
      61 + 3 ≤ (running []).nSlots ∧ (running []).nSlots < 62 + 3) ∧
    (WellFormed (.g1Affb 64 64) = true ∧ (⟨.d, 64, 0, 3, .result⟩ : Use) ∈ usesOf (running []) (.g1Affb 64 65) ∧
      (⟨.d, 64, 0, 3, .result⟩ : Use).extent = 0 ∧ 64 ≤ (running []).nSlots ∧
      see (·.errCode) (exec (.g1Affb 64 65) (running [])) = some .addressRange) := by
  decide +kernel

theorem witness_FirstIllegalSourceIsOutOfField :
    let s := running (memFrom 0 [m 1, BitVec.ofNat 384 Config.p, BitVec.ofNat 384 Config.r, BitVec.ofNat 384 (2 ^ 256)])
    (extentsOk s (.fp2Dbl 62 0) = true ∧
      sourcesOf s (.fp2Dbl 62 0) = [⟨.a, 0, 0, .field⟩] ++ ⟨.a, 1, 0, .field⟩ :: [] ∧
      [(⟨.a, 0, 0, .field⟩ : Source)].all (Source.ok s) = true ∧ s.slot 1 = some (BitVec.ofNat 384 Config.p) ∧
      SlotKind.legal .field (BitVec.ofNat 384 Config.p) = false) ∧
    (s.slot 2 = some (BitVec.ofNat 384 Config.r) ∧
      SlotKind.legal (.scalar Config.r) (BitVec.ofNat 384 Config.r) = false) ∧
    (s.slot 3 = some (BitVec.ofNat 384 (2 ^ 256)) ∧
      SlotKind.legal (.scalar (2 ^ 256)) (BitVec.ofNat 384 (2 ^ 256)) = false) := by
  decide +kernel

theorem witness_FirstUnwrittenSourceFaults :
    let s := running (memFrom 0 [m 1])
    extentsOk s (.fp2Dbl 62 0) = true ∧ sourcesOf s (.fp2Dbl 62 0) = [⟨.a, 0, 0, .field⟩] ++ ⟨.a, 1, 0, .field⟩ :: [] ∧
      [(⟨.a, 0, 0, .field⟩ : Source)].all (Source.ok s) = true ∧ s.slot 1 = none := by
  decide +kernel

theorem witness_TotalCommandsFailOnlyByCodes1To5 :
    (WellFormed (.fpAdd 63 0 0) = true ∧ hasOwnCheck (.fpAdd 63 0 0) = false ∧
      operandsOk (running (memFrom 0 [m 1])) (.fpAdd 63 0 0) = true) ∧
    operandsOk (running [] 0) (.g1Msm 61 64 64) = true ∧ hasOwnCheck (.fromwnaf 0 0) = true ∧
    see (·.errCode) (exec (.ldc 64 0) (running [])) = some .addressRange := by
  decide +kernel

/-- CHECK of (0, 1, 1), which is on neither curve, ends with code 8; the identity is a point in place. -/
theorem witness_TotalCommandsFailOnlyByCodes1To5_check :
    let s := running (memFrom 0 [m 0, m 1, m 1])
    see (·.errCode.number.toNat) (exec (.g1Check 0) s) = some 8 ∧
    holds layoutG1 s 0 ⟨Fp.zero, Fp.one, Fp.one⟩ = true ∧
    (let t := running (memFrom 0 [m 0, m 0, m 1, m 0, m 0, m 0])
     holds layoutG2 t 0 ⟨Fp2.zero, Fp2.one, Fp2.zero⟩ = true) := by
  decide +kernel

theorem witness_NopOnlyCompletes :
    accepted (running []) = true ∧ exec .nop (running []) = .next ((running []).succeed {}) ∧
    (running []).stickyErr = false ∧ opcOf 0x100 = 0 ∧ opcOf 0x8000000000000000 = 0 :=
  ⟨rfl, rfl, rfl, rfl, rfl⟩

theorem witness_CopyMovesRawSlots :
    let s := running (memFrom 0 [BitVec.allOnes 384])
    (fits s 63 (0 + 1) = true ∧ fits s 0 (0 + 1) = true ∧ slotsHold s 0 [BitVec.allOnes 384] = true ∧
      (running []).om.wf) ∧
    s.nSlots < 64 + (0 + 1) ∧ s.nSlots < 0 + (255 + 1) ∧ fits s 0 (63 + 1) = true ∧ s.nSlots < 1 + (63 + 1) ∧
    (opcOf 0x0001000000000001 = 0x01 ∧ bOf 0x0001000000000001 ≠ 0) := by
  decide +kernel

theorem witness_LdcLoadsTheConstants :
    fits (running []) 63 1 = true ∧ fits (running []) 52 12 = true ∧ fits (running []) 58 6 = true ∧
    (running []).nSlots < 53 + 12 ∧ (running []).nSlots < 64 + 1 ∧ 10 ≤ (10 : BitVec 8).toNat ∧
    10 ≤ (255 : BitVec 8).toNat ∧ (opcOf 0x100000002 = 0x02 ∧ aOf 0x100000002 ≠ 0) ∧
    (opcOf 0x1000000000002 = 0x02 ∧ bOf 0x1000000000002 ≠ 0) := by
  decide +kernel

theorem witness_MultiplierAndAdderComputeModP : 0 < Config.p ∧ Config.p - 1 < Config.p := by decide +kernel

theorem witness_CiosIsMontMul : Config.p - 1 < Config.p ∧ Config.p - 2 < Config.p := by decide +kernel

theorem witness_FpBinaryCommandsComplete :
    let s := running (memFrom 0 [0, m (Config.p - 1)])
    fits s 63 1 = true ∧ holds layoutFp s 0 (Fp.ofNat 0) = true ∧ holds layoutFp s 1 (Fp.ofNat (Config.p - 1)) = true := by
  decide +kernel

theorem witness_FpUnaryCommandsComplete :
    let s := running (memFrom 0 [m 1, BitVec.ofNat 384 (Config.p - 1)])
    fits s 63 1 = true ∧ holds layoutFp s 0 (Fp.ofNat 1) = true ∧ holds layoutWord s 1 (Fp.ofNat (Config.p - 1)) = true := by
  decide +kernel

theorem witness_FpInvCompletesByAlmostInverse :
    let s := running (memFrom 0 [0, BitVec.ofNat 384 (Config.p - 1)])
    fits s 63 1 = true ∧ holds layoutWord s 0 (Fp.ofNat 0) = true ∧ holds layoutWord s 1 (Fp.ofNat (Config.p - 1)) = true := by
  decide +kernel

theorem witness_FpInvIsTheFieldInverse :
    let s := running (memFrom 0 [0, m 2])
    fits s 63 1 = true ∧ holds layoutFp s 0 Fp.zero = true ∧ holds layoutFp s 1 (Fp.ofNat 2) = true ∧
      Fp.ofNat 2 ≠ Fp.zero := by
  decide +kernel

theorem witness_FpSqrtWritesItsRootOrFails :
    let s := running (memFrom 0 [m 4, m (Config.p - 1)])
    fits s 63 1 = true ∧ holds layoutFp s 0 (Fp.ofNat 4) = true ∧
    (Fp.ofNat 4).pow ((Config.p + 1) / 4) * (Fp.ofNat 4).pow ((Config.p + 1) / 4) = Fp.ofNat 4 ∧
    holds layoutFp s 1 (Fp.ofNat (Config.p - 1)) = true ∧
    (Fp.ofNat (Config.p - 1)).pow ((Config.p + 1) / 4) * (Fp.ofNat (Config.p - 1)).pow ((Config.p + 1) / 4) ≠
      Fp.ofNat (Config.p - 1) := by
  decide +kernel

theorem witness_SqrtAndIsqnrDecideSquares : Fp.ofNat 4 ≠ Fp.zero ∧ Fp.ofNat 2 * Fp.ofNat 2 = Fp.ofNat 4 := by
  decide +kernel

theorem witness_FpTestsSetFlag :
    let s := running (memFrom 0 [0, m (Config.p - 1)])
    holds layoutFp s 0 Fp.zero = true ∧ holds layoutFp s 1 (Fp.ofNat (Config.p - 1)) = true := by
  decide +kernel

theorem witness_FpWordLaws : 0 < Config.p ∧ 1 < Config.p ∧ Config.p - 1 < Config.p ∧ Config.p - 1 ≠ 0 := by
  decide +kernel

/-- FP2 operands, with one at the end of the memory that is written. -/
theorem witness_Fp2CommandsComplete :
    let s := running (memFrom 0 [m 1, m 2, m 3])
    fits s 62 2 = true ∧ holds layoutFp2 s 0 (fp2 1 2) = true ∧ holds layoutFp2 s 1 (fp2 2 3) = true := by
  decide +kernel

theorem witness_TowerInvAndEqComplete :
    let s := running (memFrom 0 (layoutFp12.words w ++ (layoutFp12.words w ++ (layoutFp6.words v ++ (layoutFp2.words u ++ [])))))
    (fits s 62 2 = true ∧ holds layoutFp2 s 30 u = true) ∧ (fits s 58 6 = true ∧ holds layoutFp6 s 24 v = true) ∧
    (fits s 52 12 = true ∧ holds layoutFp12 s 0 w = true ∧ holds layoutFp12 s 12 w = true) :=
  ⟨⟨rfl, holds_memFrom (layoutFp12.words w ++ (layoutFp12.words w ++ layoutFp6.words v)) []
      (by simp only [List.append_assoc]; rfl) rfl rfl⟩,
   ⟨rfl, holds_memFrom (layoutFp12.words w ++ layoutFp12.words w) (layoutFp2.words u ++ [])
      (by simp only [List.append_assoc]; rfl) rfl rfl⟩,
   rfl, holds_memFrom [] _ rfl rfl rfl, holds_memFrom (layoutFp12.words w) _ rfl rfl rfl⟩

theorem witness_Fp6CommandsComplete :
    let s := running (memFrom 0 (layoutFp6.words v ++ (layoutFp6.words v ++ (layoutSparse2.words (u, Fp2.one) ++
      (layoutFp2.words u ++ [])))))
    fits s 58 6 = true ∧ holds layoutFp6 s 0 v = true ∧ holds layoutFp6 s 6 v = true ∧
      holds layoutSparse2 s 12 (u, Fp2.one) = true ∧ holds layoutFp2 s 16 u = true :=
  ⟨rfl, holds_memFrom [] _ rfl rfl rfl, holds_memFrom (layoutFp6.words v) _ rfl rfl rfl,
   holds_memFrom (layoutFp6.words v ++ layoutFp6.words v) (layoutFp2.words u ++ [])
    (by simp only [List.append_assoc]; rfl) rfl rfl,
   holds_memFrom (layoutFp6.words v ++ (layoutFp6.words v ++ layoutSparse2.words (u, Fp2.one))) []
    (by simp only [List.append_assoc]; rfl) rfl rfl⟩

theorem witness_Fp12CommandsComplete :
    let s := running (memFrom 0 (layoutFp12.words w ++ (layoutFp12.words w ++ (layoutSparse3.words (u, Fp2.one, u) ++ []))))
    fits s 52 12 = true ∧ holds layoutFp12 s 0 w = true ∧ holds layoutFp12 s 12 w = true ∧
      holds layoutSparse3 s 24 (u, Fp2.one, u) = true :=
  ⟨rfl, holds_memFrom [] _ rfl rfl rfl, holds_memFrom (layoutFp12.words w) _ rfl rfl rfl,
   holds_memFrom (layoutFp12.words w ++ layoutFp12.words w) [] (by simp only [List.append_assoc]; rfl) rfl rfl⟩

theorem witness_TowerInversesMultiplyToOne : u ≠ Fp2.zero ∧ v ≠ Fp6.zero ∧ w ≠ Fp12.zero := by decide +kernel

/-- G1 operands and scalars at 0, r − 1 and 2^256 − 1. -/
theorem witness_GroupCommandsComplete_g1 :
    let s := running (memFrom 0 (layoutG1.words g1Generator ++ (layoutG1.words curveG1.identity ++
      (layoutSC.words (2 ^ 256 - 1) ++ (layoutSC.words (Config.r - 1) ++ [])))))
    fits s 61 3 = true ∧ holds layoutG1 s 0 g1Generator = true ∧ holds layoutG1 s 3 curveG1.identity = true ∧
      (2 ^ 256 - 1 < 2 ^ 256 ∧ holds layoutSC s 6 (2 ^ 256 - 1) = true) ∧
      (Config.r - 1 < Config.r ∧ holds layoutSC s 7 (Config.r - 1) = true) :=
  ⟨rfl, holds_memFrom [] _ rfl rfl rfl, holds_memFrom (layoutG1.words g1Generator) _ rfl rfl rfl,
   ⟨by decide +kernel, holds_memFrom (layoutG1.words g1Generator ++ layoutG1.words curveG1.identity)
    (layoutSC.words (Config.r - 1) ++ []) (by simp only [List.append_assoc]; rfl) rfl (fits_running (by decide +kernel))⟩,
   by decide +kernel, holds_memFrom (layoutG1.words g1Generator ++ (layoutG1.words curveG1.identity ++ layoutSC.words (2 ^ 256 - 1)))
    [] (by simp only [List.append_assoc]; rfl) rfl (fits_running (by decide +kernel))⟩

theorem witness_GroupCommandsComplete_g2 :
    let s := running (memFrom 0 (layoutG2.words g2Generator ++ (layoutG2.words curveG2.identity ++
      (layoutSC.words (2 ^ 256 - 1) ++ (layoutSC.words (Config.r - 1) ++ [])))))
    fits s 58 6 = true ∧ holds layoutG2 s 0 g2Generator = true ∧ holds layoutG2 s 6 curveG2.identity = true ∧
      (2 ^ 256 - 1 < 2 ^ 256 ∧ holds layoutSC s 12 (2 ^ 256 - 1) = true) ∧
      (Config.r - 1 < Config.r ∧ holds layoutSC s 13 (Config.r - 1) = true) :=
  ⟨rfl, holds_memFrom [] _ rfl rfl rfl, holds_memFrom (layoutG2.words g2Generator) _ rfl rfl rfl,
   ⟨by decide +kernel, holds_memFrom (layoutG2.words g2Generator ++ layoutG2.words curveG2.identity)
    (layoutSC.words (Config.r - 1) ++ []) (by simp only [List.append_assoc]; rfl) rfl (fits_running (by decide +kernel))⟩,
   by decide +kernel, holds_memFrom (layoutG2.words g2Generator ++ (layoutG2.words curveG2.identity ++ layoutSC.words (2 ^ 256 - 1)))
    [] (by simp only [List.append_assoc]; rfl) rfl (fits_running (by decide +kernel))⟩

theorem witness_MixedAdditionNeedsAnAffinePoint_g1 :
    let P : Point Fp := ⟨Fp.ofNat 1, Fp.ofNat 1, Fp.ofNat 2⟩
    let s := running (memFrom 0 (layoutG1.words g1Generator ++ (layoutG1.words curveG1.identity ++ (layoutG1.words P ++ []))))
    fits s 61 3 = true ∧ (holds layoutG1 s 0 g1Generator = true ∧ g1Generator.z = Fp.one) ∧
    (holds layoutG1 s 3 curveG1.identity = true ∧ curveG1.identity.z = Fp.zero) ∧
    (holds layoutG1 s 6 P = true ∧ P.z ≠ Fp.zero ∧ P.z ≠ Fp.one) :=
  ⟨rfl, ⟨holds_memFrom [] _ rfl rfl rfl, rfl⟩, ⟨holds_memFrom (layoutG1.words g1Generator) _ rfl rfl rfl, rfl⟩,
   holds_memFrom (layoutG1.words g1Generator ++ layoutG1.words curveG1.identity) []
    (by simp only [List.append_assoc]; rfl) rfl rfl, by decide +kernel, by decide +kernel⟩

theorem witness_MixedAdditionNeedsAnAffinePoint_g2 :
    let P : Point Fp2 := ⟨fp2 1 1, fp2 1 1, fp2 1 1⟩
    let s := running (memFrom 0 (layoutG2.words g2Generator ++ (layoutG2.words curveG2.identity ++ (layoutG2.words P ++ []))))
    fits s 58 6 = true ∧ (holds layoutG2 s 0 g2Generator = true ∧ g2Generator.z = Fp2.one) ∧
    (holds layoutG2 s 6 curveG2.identity = true ∧ curveG2.identity.z = Fp2.zero) ∧
    (holds layoutG2 s 12 P = true ∧ P.z ≠ Fp2.zero ∧ P.z ≠ Fp2.one) :=
  ⟨rfl, ⟨holds_memFrom [] _ rfl rfl rfl, rfl⟩, ⟨holds_memFrom (layoutG2.words g2Generator) _ rfl rfl rfl, rfl⟩,
   holds_memFrom (layoutG2.words g2Generator ++ layoutG2.words curveG2.identity) []
    (by simp only [List.append_assoc]; rfl) rfl rfl, by decide +kernel, by decide +kernel⟩

theorem witness_GroupPredicatesSetFlag :
    let s := running (memFrom 55 (layoutG1.words g1Generator ++ (layoutG2.words g2Generator ++ [])))
    holds layoutG1 s 55 g1Generator = true ∧ holds layoutG2 s 58 g2Generator = true :=
  ⟨holds_memFrom [] _ rfl rfl rfl, holds_memFrom (layoutG1.words g1Generator) _ rfl rfl rfl⟩

theorem witness_CheckReportsCurveThenSubgroup_g1 :
    let wrong : Point Fp := ⟨Fp.ofNat 4,
      Fp.ofNat 0x0a989badd40d6212b33cffc3f3763e9bc760f988c9926b26da9dd85e928483446346b8ed00e1de5d5ea93e354abe706c, Fp.one⟩
    let off : Point Fp := ⟨Fp.ofNat 1, Fp.ofNat 2, Fp.one⟩
    let s := running (memFrom 0 (layoutG1.words curveG1.identity ++ (layoutG1.words off ++ (layoutG1.words wrong ++ []))))
    (holds layoutG1 s 0 curveG1.identity = true ∧ curveG1.onCurve curveG1.identity = true ∧
      curveG1.inSubgroup curveG1.identity = true) ∧
    (holds layoutG1 s 3 off = true ∧ curveG1.onCurve off = false) ∧
    (holds layoutG1 s 6 wrong = true ∧ curveG1.onCurve wrong = true ∧ curveG1.inSubgroup wrong = false) :=
  ⟨⟨holds_memFrom [] _ rfl rfl rfl, by decide +kernel, by decide +kernel⟩,
   ⟨holds_memFrom (layoutG1.words curveG1.identity) _ rfl rfl rfl, by decide +kernel⟩,
   holds_memFrom (layoutG1.words curveG1.identity ++ layoutG1.words ⟨Fp.ofNat 1, Fp.ofNat 2, Fp.one⟩) []
    (by simp only [List.append_assoc]; rfl) rfl rfl, by decide +kernel, by decide +kernel⟩

theorem witness_CheckReportsCurveThenSubgroup_g2 :
    let off : Point Fp2 := ⟨Fp2.one, Fp2.one, Fp2.one⟩
    let wrong : Point Fp2 := ⟨fp2 0 1,
      fp2 0x135203e60180a68ee2e9c448d77a2cd91c3dedd930b1cf60ef396489f61eb45e304466cf3e67fa0af1ee7b04121bdea2
        0x140d2a0ca7fdc0223895aa4843747ffad8ac19034879ca1b67e64a4501b6c551cb36cb8e58c411de58318ef3c9ab641b, Fp2.one⟩
    let s := running (memFrom 0 (layoutG2.words curveG2.identity ++ (layoutG2.words off ++ (layoutG2.words wrong ++ []))))
    (holds layoutG2 s 0 curveG2.identity = true ∧ curveG2.onCurve curveG2.identity = true ∧
      curveG2.inSubgroup curveG2.identity = true) ∧
    (holds layoutG2 s 6 off = true ∧ curveG2.onCurve off = false) ∧
    (holds layoutG2 s 12 wrong = true ∧ curveG2.onCurve wrong = true ∧ curveG2.inSubgroup wrong = false) :=
  ⟨⟨holds_memFrom [] _ rfl rfl rfl, by decide +kernel, by decide +kernel⟩,
   ⟨holds_memFrom (layoutG2.words curveG2.identity) _ rfl rfl rfl, by decide +kernel⟩,
   holds_memFrom (layoutG2.words curveG2.identity ++ layoutG2.words ⟨Fp2.one, Fp2.one, Fp2.one⟩) []
    (by simp only [List.append_assoc]; rfl) rfl rfl, by decide +kernel, by decide +kernel⟩

theorem witness_GroupListCommandsComplete_g1 :
    let Ps := [g1Generator, curveG1.identity]
    let ks := [0, Config.r - 1]
    let s := running (memFrom 0 ((layoutList 2 layoutG1).words Ps ++ ((layoutList 2 layoutSCr).words ks ++ []))) 2
    s.countLatch.toNat = Ps.length ∧ Ps.length ≤ s.maxCount ∧ holds (layoutList 2 layoutG1) s 0 Ps = true ∧
    fits s 58 (2 * 3) = true ∧ fits s 61 3 = true ∧ ks.length = Ps.length ∧ (∀ k ∈ ks, k < Config.r) ∧
    holds (layoutList 2 layoutSCr) s 6 ks = true :=
  ⟨rfl, by decide +kernel, holds_memFrom [] _ rfl rfl rfl, rfl, rfl, rfl, by decide +kernel,
   holds_memFrom ((layoutList 2 layoutG1).words [g1Generator, curveG1.identity]) _ rfl rfl rfl⟩

theorem witness_GroupListCommandsComplete_g2 :
    let Ps := [g2Generator, curveG2.identity, g2Generator, g2Generator]
    let ks := [0, Config.r - 1, 1, 2]
    let s := running (memFrom 0 ((layoutList 4 layoutG2).words Ps ++ ((layoutList 4 layoutSCr).words ks ++ []))) 4
    s.countLatch.toNat = Ps.length ∧ Ps.length ≤ s.maxCount ∧ holds (layoutList 4 layoutG2) s 0 Ps = true ∧
    fits s 40 (4 * 6) = true ∧ fits s 58 6 = true ∧ ks.length = Ps.length ∧ (∀ k ∈ ks, k < Config.r) ∧
    holds (layoutList 4 layoutSCr) s 24 ks = true :=
  ⟨rfl, by decide +kernel, holds_memFrom [] _ rfl rfl rfl, rfl, rfl, rfl, by decide +kernel,
   holds_memFrom ((layoutList 4 layoutG2).words [g2Generator, curveG2.identity, g2Generator, g2Generator]) _ rfl rfl rfl⟩

theorem witness_ConstantFormAndMixedFormAgree :
    Config.r - 1 < Config.r ∧ g1Generator.z = Fp.one ∧ g2Generator.z = Fp2.one ∧
    (curveG1.identity.z = Fp.zero ∧ g1Generator.z ≠ Fp.zero) ∧ (curveG2.identity.z = Fp2.zero ∧ g2Generator.z ≠ Fp2.zero) := by
  decide +kernel

theorem witness_GroupFormulasStayOnTheCurve :
    curveG1.onCurve g1Generator = true ∧ curveG1.onCurve curveG1.identity = true ∧ curveG2.onCurve g2Generator = true ∧
    curveG2.onCurve curveG2.identity = true := by
  decide +kernel

/-- The slope of the tangent at (2, 6), and of the chord from (0, 0) to (1, 3). -/
theorem witness_JacobianFormulasAreTangentAndChord :
    (Fp.ofNat 7 ≠ Fp.zero ∧ (Fp.ofNat 6 + Fp.ofNat 6) * Fp.ofNat 1 =
      Fp.ofNat 2 * Fp.ofNat 2 + Fp.ofNat 2 * Fp.ofNat 2 + Fp.ofNat 2 * Fp.ofNat 2) ∧
    (Fp.ofNat 0 ≠ Fp.ofNat 1 ∧ (Fp.ofNat 1 - Fp.ofNat 0) * Fp.ofNat 3 = Fp.ofNat 3 - Fp.ofNat 0) := by
  decide +kernel

theorem witness_AffineFormIsUnique :
    (g1Generator.z ≠ Fp.zero ∧ (curveG1.dblF g1Generator).z ≠ Fp.zero ∧
      curveG1.equal (curveG1.dblF g1Generator) (curveG1.addF g1Generator g1Generator) = true) ∧
    (g2Generator.z ≠ Fp2.zero ∧ curveG2.equal g2Generator g2Generator = true) := by
  decide +kernel

theorem witness_PairingListCommandsComplete :
    let Ps := [g1Generator]
    let Qs := [g2Generator]
    let s := running (memFrom 0 ((layoutList 1 layoutG1).words Ps ++ ((layoutList 1 layoutG2).words Qs ++ []))) 1
    s.countLatch.toNat = Ps.length ∧ Qs.length = Ps.length ∧ Ps.length ≤ s.maxCount ∧
    holds (layoutList 1 layoutG1) s 0 Ps = true ∧ holds (layoutList 1 layoutG2) s 3 Qs = true ∧ fits s 52 12 = true :=
  ⟨rfl, rfl, by decide +kernel, holds_memFrom [] _ rfl rfl rfl,
   holds_memFrom ((layoutList 1 layoutG1).words [g1Generator]) _ rfl rfl rfl, rfl⟩

theorem witness_ExponentiationCommandsComplete :
    let s := running (memFrom 52 (layoutFp12.words w ++ []))
    fits s 52 12 = true ∧ holds layoutFp12 s 52 w = true :=
  ⟨rfl, holds_memFrom [] _ rfl rfl rfl⟩

theorem witness_MillerIsAProductOverPairs :
    [g1Generator].length = [g2Generator].length ∧ curveG1.identity.z = Fp.zero ∧ curveG2.identity.z = Fp2.zero := by
  decide +kernel

/-- A scalar at each end, and digits that sum to 1, to −1 and to 2^256. -/
theorem witness_ScalarCommandsComplete_wnaf :
    let s := running (memFrom 62 (layoutSC.words (2 ^ 256 - 1) ++ (layoutSC.words 0 ++ [])))
    (2 ≤ (2 : BitVec 8).toNat ∧ (8 : BitVec 8).toNat ≤ 8) ∧ 2 ^ 256 - 1 < 2 ^ 256 ∧ fits s 58 6 = true ∧
      holds layoutSC s 62 (2 ^ 256 - 1) = true ∧ holds layoutSC s 63 0 = true :=
  ⟨by decide, by decide +kernel, rfl, holds_memFrom [] _ rfl rfl (fits_running (by decide +kernel)),
   holds_memFrom (layoutSC.words (2 ^ 256 - 1)) _ rfl rfl (fits_running (by decide +kernel))⟩

theorem witness_ScalarCommandsComplete_fromwnaf :
    let one := digitBytes [1]
    let minus := digitBytes [-1]
    let big := digitBytes (List.replicate 256 0 ++ [1])
    let s := running (memFrom 0 (layoutWN.words one ++ (layoutWN.words minus ++ (layoutWN.words big ++ []))))
    fits s 63 1 = true ∧ (one.length = 288 ∧ holds layoutWN s 0 one = true ∧ digitSum one = 1) ∧
    (minus.length = 288 ∧ holds layoutWN s 6 minus = true ∧ digitSum minus < 0) ∧
    (big.length = 288 ∧ holds layoutWN s 12 big = true ∧ 2 ^ 256 ≤ digitSum big) :=
  ⟨rfl, ⟨by decide +kernel, holds_memFrom [] _ rfl rfl rfl, by decide +kernel⟩,
   ⟨by decide +kernel, holds_memFrom (layoutWN.words (digitBytes [1])) _ rfl rfl rfl, by decide +kernel⟩,
   by decide +kernel,
   holds_memFrom (layoutWN.words (digitBytes [1]) ++ layoutWN.words (digitBytes [-1])) []
    (by simp only [List.append_assoc]; rfl) rfl rfl, by decide +kernel⟩

theorem witness_WnafRoundTrips :
    (2 ≤ 2 ∧ 8 ≤ 8 ∧ 0 < 2 ^ 256 ∧ 2 ^ 256 - 1 < 2 ^ 256) ∧
    ((wnafDigitsOf 8 255)[0]? = some (-1) ∧ (-1 : Int) ≠ 0 ∧ 1 ≤ 7 ∧ 7 ≤ 8 - 1) := by
  decide +kernel

theorem witness_RegisterReads_issued :
    ((0xFF8 : HostAddr).toNat < 0x1000 ∧ (0xFF8 : HostAddr).toNat % 8 = 0) ∧
      PerformsNext (idle [.read 0xFF8 8]) (.read 0xFF8 8) { idle [.read 0xFF8 8] with host := [] } :=
  ⟨by decide, .issued _ _ _ rfl rfl rfl⟩

theorem witness_RegisterReads_passing :
    PerformsNext (crowded [.read 0x018 8]) (.read 0x018 8) { crowded [.read 0x018 8] with sched := [.sequencer], host := [] } :=
  .passing _ _ _ _ rfl rfl rfl rfl

theorem witness_RegisterWrites_ctrl :
    (0x010 : HostAddr) ≠ 0x040 ∧ (1 : Word).getLsbD 1 = false ∧ (0 : Word).getLsbD 0 = false ∧
      PerformsNext (crowded [.write 0x010 8 1]) (.write 0x010 8 1)
        { crowded [.write 0x010 8 1] with sched := [.sequencer], host := [] } :=
  ⟨by decide, by decide, by decide, .passing _ _ _ _ rfl rfl rfl rfl⟩

theorem witness_RegisterWrites_status :
    (2 : Word).getLsbD 1 = true ∧ PerformsNext (idle [.write 0x018 8 2]) (.write 0x018 8 2)
      { idle [.write 0x018 8 2] with host := [] } :=
  ⟨by decide, .issued _ _ _ rfl rfl rfl⟩

theorem witness_RegisterWrites_count :
    PerformsNext { State.reset with stalled := [hostSetCount 3] } (.write 0x030 8 3) { State.reset with stalled := [] } :=
  .held _ _ _ rfl rfl

theorem witness_RegisterWrites_other :
    PerformsNext (idle [.write 0xFF8 8 2]) (.write 0xFF8 8 2) { idle [.write 0xFF8 8 2] with host := [] } :=
  .issued _ _ _ rfl rfl rfl

theorem witness_OperandMemoryLimbs_read :
    paramsOk State.reset = true ∧ 63 < State.reset.nSlots ∧ (0x100BF8 : HostAddr).toNat = 0x100000 + 8 * (6 * 63 + 5) ∧
    (idle [] (memFrom 63 [7])).slot 63 = some 7 ∧
    Memory.readLimb (memFrom 63 [7]) (0x100000 + 8 * (6 * 63 + 5)) = some 0 ∧
    Memory.readLimb [] (0x100000 + 8 * (6 * 63 + 5)) = none := by
  decide +kernel

theorem witness_OperandMemoryLimbs_port :
    PerformsNext (idle [.read 0x100BF8 8]) (.read 0x100BF8 8) { idle [.read 0x100BF8 8] with host := [] } ∧
    PerformsNext (idle [.write 0x100BF8 8 1]) (.write 0x100BF8 8 1) { idle [.write 0x100BF8 8 1] with host := [] } :=
  ⟨.issued _ _ _ rfl rfl rfl, .issued _ _ _ rfl rfl rfl⟩

theorem witness_AccessesStallWhileBusy :
    let s := crowded [.read 0x100000 8]
    (s.busy = true ∧ s.sched = .host :: [.sequencer] ∧ s.host = .read 0x100000 8 :: [] ∧
      stalls s (.read 0x100000 8) = true) ∧
    (paramsOk s = true ∧ (0x100BF8 : HostAddr).toNat % 8 = 0 ∧ (0x100C00 : HostAddr).toNat % 8 = 0) ∧
    ({ State.reset with stalled := [hostSubmit 0] }.busy = false) := by
  decide +kernel

theorem witness_ResetsClearTheRegisters_soft :
    (2 : Word).getLsbD 1 = true ∧ PerformsNext (crowded [.write 0x010 8 2]) (.write 0x010 8 2)
      { crowded [.write 0x010 8 2] with sched := [.sequencer], host := [] } :=
  ⟨by decide, .passing _ _ _ _ rfl rfl rfl rfl⟩

theorem witness_ResetsClearTheRegisters_hard :
    PerformsNext (crowded [.hardReset]) .hardReset { crowded [.hardReset] with sched := [.sequencer], host := [] } :=
  .passing _ _ _ _ rfl rfl rfl rfl

theorem witness_BusErrorsAndReservedAddresses_width :
    PerformsNext (idle [.read 0x008 4]) (.read 0x008 4) { idle [.read 0x008 4] with host := [] } ∧
    PerformsNext (idle [.write 0x009 8 1]) (.write 0x009 8 1) { idle [.write 0x009 8 1] with host := [] } ∧
    4 ≠ 8 ∧ (0x009 : HostAddr).toNat % 8 ≠ 0 :=
  ⟨.issued _ _ _ rfl rfl rfl, .issued _ _ _ rfl rfl rfl, by decide, by decide⟩

theorem witness_BusErrorsAndReservedAddresses_reserved :
    (0x1000 ≤ (0x1000 : HostAddr).toNat ∧ (0x0FFFF8 : HostAddr).toNat < 0x100000) ∧
    0x100000 + 48 * State.reset.nSlots ≤ (0x100C00 : HostAddr).toNat ∧ (0x3FFFF8 : HostAddr).toNat % 8 = 0 := by
  decide +kernel

theorem witness_BusErrorsAndReservedAddresses_port :
    PerformsNext (idle [.read 0x100C00 8]) (.read 0x100C00 8) { idle [.read 0x100C00 8] with host := [] } ∧
    PerformsNext (idle [.write 0x001000 8 1]) (.write 0x001000 8 1) { idle [.write 0x001000 8 1] with host := [] } :=
  ⟨.issued _ _ _ rfl rfl rfl, .issued _ _ _ rfl rfl rfl⟩

end Sys2Proof.Tests
end

section
/-! PROOFS. Fp as the integers modulo p, and the Jacobian formulas of R136 and R137 as ring expressions: the tangent and
the chord (O48). -/

namespace Sys2Proof.Machine

/-! ### Fp is read in `ZMod p` -/

/-- The residue class of a field value. -/
def Fp.toZMod (x : Fp) : ZMod Config.p := (x.val : ZMod Config.p)

@[simp] theorem Fp.toZMod_ofNat (n : Nat) : (Fp.ofNat n).toZMod = n := by
  simp [Fp.toZMod, Fp.ofNat]

@[simp] theorem Fp.toZMod_zero : Fp.zero.toZMod = 0 := by
  simp [Fp.zero]

@[simp] theorem Fp.toZMod_one : Fp.one.toZMod = 1 := by
  simp [Fp.one]

@[simp] theorem Fp.toZMod_add (x y : Fp) : (x + y).toZMod = x.toZMod + y.toZMod := by
  simp [Fp.toZMod, Fin.val_add]

@[simp] theorem Fp.toZMod_mul (x y : Fp) : (x * y).toZMod = x.toZMod * y.toZMod := by
  simp [Fp.toZMod, Fin.val_mul]

@[simp] theorem Fp.toZMod_sub (x y : Fp) : (x - y).toZMod = x.toZMod - y.toZMod := by
  simp [Fp.toZMod, Fin.sub_def, Nat.cast_sub y.isLt.le, neg_add_eq_sub]

theorem Fp.toZMod_injective : Function.Injective Fp.toZMod := by
  intro x y h
  have hmod := (ZMod.natCast_eq_natCast_iff' _ _ _).1 h
  rw [Nat.mod_eq_of_lt x.isLt, Nat.mod_eq_of_lt y.isLt] at hmod
  exact Fin.ext hmod

/-! ### The group formulas as ring expressions -/

namespace Curve

/-- `ι` reads the coordinate field of `C` faithfully in the ring `K`: the curve's operations are those of `K`. -/
structure ReadIn {F K : Type} [CommRing K] (C : Curve F) (ι : F → K) : Prop where
  injective : Function.Injective ι
  zero : ι C.zero = 0
  one : ι C.one = 1
  add : ∀ x y, ι (C.add x y) = ι x + ι y
  sub : ∀ x y, ι (C.sub x y) = ι x - ι y
  mul : ∀ x y, ι (C.mul x y) = ι x * ι y

namespace ReadIn

variable {F K : Type} [CommRing K] {C : Curve F} {ι : F → K} (R : C.ReadIn ι)

include R

theorem sqr (x : F) : ι (C.sqr x) = ι x ^ 2 := by
  rw [Curve.sqr, R.mul, sq]

theorem dbl (x : F) : ι (C.dbl x) = 2 * ι x := by
  rw [Curve.dbl, R.add, two_mul]

theorem triple (x : F) : ι (C.triple x) = 3 * ι x := by
  rw [Curve.triple, R.add, R.dbl]
  ring

theorem ne_zero {x : F} (h : x ≠ C.zero) : ι x ≠ 0 := fun h0 => h (R.injective (h0.trans R.zero.symm))

theorem point_ext {P Q : Point F} (hx : ι P.x = ι Q.x) (hy : ι P.y = ι Q.y) (hz : ι P.z = ι Q.z) : P = Q := by
  cases P
  cases Q
  rw [Point.mk.injEq]
  exact ⟨R.injective hx, R.injective hy, R.injective hz⟩

variable [DecidableEq F]

/-- DBLF (R136) off the identity. -/
theorem dblF_coords {P : Point F} (hz : P.z ≠ C.zero) :
    ι (C.dblF P).x = 9 * ι P.x ^ 4 - 8 * ι P.x * ι P.y ^ 2 ∧
    ι (C.dblF P).y = 3 * ι P.x ^ 2 * (12 * ι P.x * ι P.y ^ 2 - 9 * ι P.x ^ 4) - 8 * ι P.y ^ 4 ∧
    ι (C.dblF P).z = 2 * ι P.y * ι P.z := by
  simp only [dblF, if_neg hz, R.add, R.sub, R.mul, R.sqr, R.dbl, R.triple, and_true]
  constructor <;> ring

/-- ADDF (R137) past its fallbacks; u₁, u₂ and s₁, s₂ are the coordinates over the common Z of R137. -/
theorem addF_coords {P Q : Point F} {u₁ u₂ s₁ s₂ : K} (hP : P.z ≠ C.zero) (hQ : Q.z ≠ C.zero)
    (hu₁ : ι P.x * ι Q.z ^ 2 = u₁) (hu₂ : ι Q.x * ι P.z ^ 2 = u₂) (hs₁ : ι P.y * ι Q.z ^ 3 = s₁)
    (hs₂ : ι Q.y * ι P.z ^ 3 = s₂) (hne : u₁ ≠ u₂) :
    ι (C.addF P Q).x = 4 * ((s₂ - s₁) ^ 2 - (u₂ - u₁) ^ 2 * (u₁ + u₂)) ∧
    ι (C.addF P Q).y =
      8 * ((s₂ - s₁) * ((u₂ - u₁) ^ 2 * (2 * u₁ + u₂) - (s₂ - s₁) ^ 2) - s₁ * (u₂ - u₁) ^ 3) ∧
    ι (C.addF P Q).z = 2 * ι P.z * ι Q.z * (u₂ - u₁) := by
  have hbranch : ¬ C.mul P.x (C.sqr Q.z) = C.mul Q.x (C.sqr P.z) := fun h => hne <| by
    rw [← hu₁, ← hu₂, ← R.sqr, ← R.sqr, ← R.mul, ← R.mul, h]
  simp only [addF, if_neg hP, if_neg hQ, if_neg hbranch, R.add, R.sub, R.mul, R.sqr, R.dbl]
  subst hu₁ hu₂ hs₁ hs₂
  refine ⟨?_, ?_, ?_⟩ <;> ring

/-- The tangent: DBLF at the affine point (x, y), with slope l (R18, R136). -/
theorem dblF_tangent {P : Point F} {x y l : K} (hz : P.z ≠ C.zero) (hx : ι P.x = x * ι P.z ^ 2)
    (hy : ι P.y = y * ι P.z ^ 3) (hl : 2 * y * l = 3 * x ^ 2) :
    ι (C.dblF P).x = (l ^ 2 - 2 * x) * ι (C.dblF P).z ^ 2 ∧
    ι (C.dblF P).y = (l * (x - (l ^ 2 - 2 * x)) - y) * ι (C.dblF P).z ^ 3 := by
  obtain ⟨hx₃, hy₃, hz₃⟩ := R.dblF_coords hz
  rw [hx₃, hy₃, hz₃, hx, hy]
  constructor
  · linear_combination (-(ι P.z ^ 8) * (3 * x ^ 2 + 2 * y * l)) * hl
  · linear_combination (-(ι P.z ^ 12) *
      (12 * x * y ^ 2 - ((3 * x ^ 2) ^ 2 + 3 * x ^ 2 * (2 * y * l) + (2 * y * l) ^ 2))) * hl

/-- The chord: ADDF at affine points with different x, with slope l (R18, R137). -/
theorem addF_chord [IsDomain K] {P Q : Point F} {x₁ y₁ x₂ y₂ l : K} (hP : P.z ≠ C.zero) (hQ : Q.z ≠ C.zero)
    (hx₁ : ι P.x = x₁ * ι P.z ^ 2) (hy₁ : ι P.y = y₁ * ι P.z ^ 3) (hx₂ : ι Q.x = x₂ * ι Q.z ^ 2)
    (hy₂ : ι Q.y = y₂ * ι Q.z ^ 3) (hne : x₁ ≠ x₂) (hl : (x₂ - x₁) * l = y₂ - y₁) :
    ι (C.addF P Q).x = (l ^ 2 - x₁ - x₂) * ι (C.addF P Q).z ^ 2 ∧
    ι (C.addF P Q).y = (l * (x₁ - (l ^ 2 - x₁ - x₂)) - y₁) * ι (C.addF P Q).z ^ 3 := by
  let w := ι P.z * ι Q.z
  have hw : w ^ 2 ≠ 0 := pow_ne_zero 2 (mul_ne_zero (R.ne_zero hP) (R.ne_zero hQ))
  obtain ⟨hx₃, hy₃, hz₃⟩ := R.addF_coords (u₁ := x₁ * w ^ 2) (u₂ := x₂ * w ^ 2) (s₁ := y₁ * w ^ 3)
    (s₂ := y₂ * w ^ 3) hP hQ (by rw [hx₁]; ring) (by rw [hx₂]; ring) (by rw [hy₁]; ring) (by rw [hy₂]; ring)
    fun h => hne (mul_right_cancel₀ hw h)
  have hy : y₂ = y₁ + (x₂ - x₁) * l := by rw [hl]; ring
  rw [hx₃, hy₃, hz₃, hy]
  constructor <;> ring

end ReadIn

end Curve

theorem curveG1_readIn : curveG1.ReadIn Fp.toZMod where
  injective := Fp.toZMod_injective
  zero := Fp.toZMod_zero
  one := Fp.toZMod_one
  add := Fp.toZMod_add
  sub := Fp.toZMod_sub
  mul := Fp.toZMod_mul

/-! ### Jacobian triples of affine coordinates in G1 -/

/-- The triple of the affine coordinates (x, y) over Z = z (R18). -/
def Fp.jacobian (x y z : Fp) : Point Fp := ⟨x * (z * z), y * (z * z * z), z⟩

theorem Fp.toZMod_jacobian_x (x y z : Fp) :
    (Fp.jacobian x y z).x.toZMod = x.toZMod * (Fp.jacobian x y z).z.toZMod ^ 2 := by
  simp [Fp.jacobian, sq]

theorem Fp.toZMod_jacobian_y (x y z : Fp) :
    (Fp.jacobian x y z).y.toZMod = y.toZMod * (Fp.jacobian x y z).z.toZMod ^ 3 := by
  simp [Fp.jacobian, pow_succ]

theorem Fp.eq_jacobian {P : Point Fp} {x y : Fp} (hx : P.x.toZMod = x.toZMod * P.z.toZMod ^ 2)
    (hy : P.y.toZMod = y.toZMod * P.z.toZMod ^ 3) : P = Fp.jacobian x y P.z :=
  curveG1_readIn.point_ext (hx.trans (Fp.toZMod_jacobian_x x y P.z).symm)
    (hy.trans (Fp.toZMod_jacobian_y x y P.z).symm) rfl

theorem dblF_jacobian {x y z l : Fp} (hz : z ≠ Fp.zero) (hl : (y + y) * l = x * x + x * x + x * x) :
    curveG1.dblF (Fp.jacobian x y z) =
      Fp.jacobian (l * l - x - x) (l * (x - (l * l - x - x)) - y) (curveG1.dblF (Fp.jacobian x y z)).z := by
  have hslope := congrArg Fp.toZMod hl
  simp only [Fp.toZMod_add, Fp.toZMod_mul] at hslope
  obtain ⟨hx₃, hy₃⟩ := curveG1_readIn.dblF_tangent (P := Fp.jacobian x y z) hz (Fp.toZMod_jacobian_x x y z)
    (Fp.toZMod_jacobian_y x y z) (l := l.toZMod) (by linear_combination hslope)
  refine Fp.eq_jacobian (hx₃.trans ?_) (hy₃.trans ?_) <;>
    · simp only [Fp.toZMod_mul, Fp.toZMod_sub]
      ring

theorem addF_jacobian {x₁ y₁ z₁ x₂ y₂ z₂ l : Fp} (hz₁ : z₁ ≠ Fp.zero) (hz₂ : z₂ ≠ Fp.zero) (hne : x₁ ≠ x₂)
    (hl : (x₂ - x₁) * l = y₂ - y₁) :
    curveG1.addF (Fp.jacobian x₁ y₁ z₁) (Fp.jacobian x₂ y₂ z₂) =
      Fp.jacobian (l * l - x₁ - x₂) (l * (x₁ - (l * l - x₁ - x₂)) - y₁)
        (curveG1.addF (Fp.jacobian x₁ y₁ z₁) (Fp.jacobian x₂ y₂ z₂)).z := by
  have : Fact Config.p.Prime := ⟨p_prime⟩
  have hslope := congrArg Fp.toZMod hl
  simp only [Fp.toZMod_sub, Fp.toZMod_mul] at hslope
  obtain ⟨hx₃, hy₃⟩ := curveG1_readIn.addF_chord (P := Fp.jacobian x₁ y₁ z₁) (Q := Fp.jacobian x₂ y₂ z₂) hz₁ hz₂
    (Fp.toZMod_jacobian_x x₁ y₁ z₁) (Fp.toZMod_jacobian_y x₁ y₁ z₁) (Fp.toZMod_jacobian_x x₂ y₂ z₂)
    (Fp.toZMod_jacobian_y x₂ y₂ z₂) (fun h => hne (Fp.toZMod_injective h)) hslope
  refine Fp.eq_jacobian (hx₃.trans ?_) (hy₃.trans ?_) <;>
    · simp only [Fp.toZMod_mul, Fp.toZMod_sub]
      ring

end Sys2Proof.Machine

namespace Sys2Proof.Proofs

open Sys2Proof.Machine

/-- Settles O48: read in `ZMod p`, each formula is a ring identity once the slope's equation is used (`dblF_tangent`,
`addF_chord`); p prime (R6) keeps ADDF of two different x out of its fallback. -/
theorem jacobianFormulasAreTangentAndChord : Obligations.JacobianFormulasAreTangentAndChord :=
  ⟨fun _ _ _ _ hz hl => dblF_jacobian hz hl, fun _ _ _ _ _ _ _ hz₁ hz₂ hne hl => addF_jacobian hz₁ hz₂ hne hl⟩

end Sys2Proof.Proofs
end

section
/-! PROOFS. What a command does at its end, said once for all 89 commands (`exec_ends`): its writes lie in its destination,
FLAG and RESULT come from the commands that give them a value, an error has a code, and a fault is an unwritten source slot.
The frame (O11), the fault (O10) and the results (O12) follow. -/

namespace Sys2Proof.Machine

/-! ### Why reading an operand stops -/

theorem except_bind_eq_error {ε α β : Type} {x : Except ε α} {k : α → Except ε β} {e : ε} (h : x >>= k = .error e) :
    x = .error e ∨ ∃ a, x = .ok a ∧ k a = .error e := by
  cases x with
  | error e' => cases h; exact .inl rfl
  | ok a => exact .inr ⟨a, rfl, h⟩

/-- A read of the `n` slots from `lo` on stops by OUT_OF_FIELD, or at one of these slots that holds no value. -/
def StopsIn (s : State) (lo n : Nat) : Stop → Prop
  | .raise e => e.code = .outOfField
  | .fault f => ∃ k, lo ≤ k ∧ k < lo + n ∧ f = .unwrittenSlot k ∧ s.slot k = none

theorem StopsIn.mono {s : State} {lo n lo' n' : Nat} {st : Stop} (h : StopsIn s lo n st) (hlo : lo' ≤ lo)
    (hn : lo + n ≤ lo' + n') : StopsIn s lo' n' st := by
  cases st with
  | raise e => exact h
  | fault f =>
    obtain ⟨k, hk, hkn, hf, hnone⟩ := h
    exact ⟨k, hlo.trans hk, hkn.trans_le hn, hf, hnone⟩

/-- A layout stops for no other reason than `StopsIn` of its own slots. -/
def Layout.StopsInside {α : Type} (L : Layout α) : Prop :=
  ∀ s o idx slot st, L.read s o idx slot = .error st → StopsIn s slot L.extent st

theorem readSlot_error {s : State} {slot : Nat} {st : Stop} (h : readSlot s slot = .error st) : StopsIn s slot 1 st := by
  unfold readSlot at h
  split at h
  · cases h
  · next hnone =>
    cases h
    exact ⟨slot, le_rfl, by omega, rfl, hnone⟩

theorem stopsInside_word : layoutWord.StopsInside := by
  intro s o idx slot st h
  simp only [layoutWord, readWord] at h
  split at h
  · next hread =>
    cases h
    exact readSlot_error hread
  · split at h
    · cases h
    · cases h
      rfl

theorem stopsInside_fp : layoutFp.StopsInside := by
  intro s o idx slot st h
  simp only [layoutFp, readFp] at h
  split at h
  · next hread =>
    cases h
    exact stopsInside_word s o idx slot _ hread
  · cases h

theorem stopsInside_scalar (bound : Nat) : (layoutScalar bound).StopsInside := by
  intro s o idx slot st h
  simp only [layoutScalar, readScalar] at h
  split at h
  · next hread =>
    cases h
    exact readSlot_error hread
  · split at h
    · cases h
    · cases h
      rfl

theorem readRaw_error {s : State} {n slot : Nat} {st : Stop} (h : readRaw s n slot = .error st) :
    StopsIn s slot n st := by
  induction n generalizing slot with
  | zero => cases h
  | succ n ih =>
    unfold readRaw at h
    split at h
    · next hread =>
      cases h
      exact (readSlot_error hread).mono le_rfl (by omega)
    · split at h
      · next hrest =>
        cases h
        exact (ih hrest).mono (by omega) (by omega)
      · cases h

theorem stopsInside_raw (n : Nat) : (layoutRaw n).StopsInside := fun _ _ _ _ _ h => readRaw_error h

theorem stopsInside_wn : layoutWN.StopsInside := by
  intro s o idx slot st h
  obtain hread | ⟨_, _, hpure⟩ := except_bind_eq_error h
  · exact readRaw_error hread
  · cases hpure

theorem Layout.StopsInside.pair {α β : Type} {L : Layout α} {M : Layout β} (hL : L.StopsInside) (hM : M.StopsInside) :
    (L.pair M).StopsInside := by
  intro s o idx slot st h
  obtain hfirst | ⟨_, _, h⟩ := except_bind_eq_error h
  · exact (hL s o idx slot st hfirst).mono le_rfl (by simp [Layout.pair])
  · obtain hsecond | ⟨_, _, hpure⟩ := except_bind_eq_error h
    · exact (hM s o idx _ st hsecond).mono (by omega) (by simp [Layout.pair, Nat.add_assoc])
    · cases hpure

theorem Layout.StopsInside.iso {α β : Type} {L : Layout α} (hL : L.StopsInside) (make : α → β) (back : β → α) :
    (L.iso make back).StopsInside := by
  intro s o idx slot st h
  obtain hread | ⟨_, _, hpure⟩ := except_bind_eq_error h
  · exact hL s o idx slot st hread
  · cases hpure

theorem stopsInside_fp2 : layoutFp2.StopsInside := (stopsInside_fp.pair stopsInside_fp).iso _ _
theorem stopsInside_sparse2 : layoutSparse2.StopsInside := stopsInside_fp2.pair stopsInside_fp2
theorem stopsInside_sparse3 : layoutSparse3.StopsInside := stopsInside_fp2.pair stopsInside_sparse2
theorem stopsInside_fp6 : layoutFp6.StopsInside := stopsInside_sparse3.iso _ _
theorem stopsInside_fp12 : layoutFp12.StopsInside := (stopsInside_fp6.pair stopsInside_fp6).iso _ _
theorem Layout.StopsInside.point {F : Type} {L : Layout F} (h : L.StopsInside) : (layoutPoint L).StopsInside :=
  (h.pair (h.pair h)).iso _ _
theorem stopsInside_g1 : layoutG1.StopsInside := stopsInside_fp.point
theorem stopsInside_g2 : layoutG2.StopsInside := stopsInside_fp2.point

theorem readListFrom_error {α : Type} {L : Layout α} (hL : L.StopsInside) {s : State} {o : Operand} {n idx slot : Nat}
    {st : Stop} (h : readListFrom L s o n idx slot = .error st) : StopsIn s slot (n * L.extent) st := by
  induction n generalizing idx slot with
  | zero => cases h
  | succ n ih =>
    have hsize : (n + 1) * L.extent = L.extent + n * L.extent := by rw [Nat.succ_mul, Nat.add_comm]
    unfold readListFrom at h
    split at h
    · next hread =>
      cases h
      exact (hL s o idx slot _ hread).mono le_rfl (by omega)
    · split at h
      · next hrest =>
        cases h
        exact (ih hrest).mono (by omega) (by omega)
      · cases h

theorem Layout.StopsInside.list {α : Type} {L : Layout α} (hL : L.StopsInside) (n : Nat) : (layoutList n L).StopsInside :=
  fun _ _ _ _ _ h => readListFrom_error hL h

/-! ### How many slots a value takes -/

theorem readRaw_length {s : State} {n slot : Nat} {ws : List SlotWord} (h : readRaw s n slot = .ok ws) :
    ws.length = n := by
  induction n generalizing slot ws with
  | zero => cases h; rfl
  | succ n ih =>
    unfold readRaw at h
    split at h
    · cases h
    · split at h
      · cases h
      · next hrest =>
        cases h
        rw [List.length_cons, ih hrest]

theorem readListFrom_length {α : Type} {L : Layout α} {s : State} {o : Operand} {n idx slot : Nat} {xs : List α}
    (h : readListFrom L s o n idx slot = .ok xs) : xs.length = n := by
  induction n generalizing idx slot xs with
  | zero => cases h; rfl
  | succ n ih =>
    unfold readListFrom at h
    split at h
    · cases h
    · split at h
      · cases h
      · next hrest =>
        cases h
        rw [List.length_cons, ih hrest]

theorem layoutList_words_length {α : Type} {L : Layout α} (hL : Lawful L) {n : Nat} {xs : List α} (h : xs.length = n) :
    ((layoutList n L).words xs).length = (layoutList n L).extent := by
  simp [layoutList, List.length_flatMap, hL.length, h]

/-! ### The operands of a command -/

/-- The operands of a command as the extent check takes them (R175 check 4): field, base and extent. -/
def operandsOf (s : State) (i : Instr) : List (Operand × SlotAddr × Nat) :=
  (usesOf s i).map fun u => (u.operand, u.base, u.extent)

/-- In the table of R72 the destination is the D operand. -/
theorem uses_kind_eq_result_iff (n : Nat) (i : Instr) : ∀ u ∈ uses n i, u.kind = .result ↔ u.operand = .d := by
  cases i <;> simp [uses]

theorem destOf_of_operandsOf {s : State} {i : Instr} {d : SlotAddr} {n : Nat} {rest : List (Operand × SlotAddr × Nat)}
    (h : operandsOf s i = (.d, d, n) :: rest) : destOf s i = (d.toNat, n) := by
  obtain ⟨u, us, huses, hu, -⟩ := List.map_eq_cons_iff.mp h
  simp only [Prod.mk.injEq] at hu
  obtain ⟨hop, hbase, hextent⟩ := hu
  have hkind : u.kind = .result := (uses_kind_eq_result_iff _ i u (huses ▸ List.mem_cons_self)).mpr hop
  simp [destOf, huses, hkind, hbase, hextent]

theorem destOf_of_no_d {i : Instr} (s : State) (h : (form i).d = none) : destOf s i = (0, 0) := by
  cases i <;> simp [form, destOf, usesOf, uses] at h ⊢

/-- Every slot of an operand but D is a source. -/
theorem exists_source {s : State} {i : Instr} {o : Operand} {a : SlotAddr} {n k : Nat} (h : (o, a, n) ∈ operandsOf s i)
    (ho : o ≠ .d) (hk : a.toNat ≤ k) (hkn : k < a.toNat + n) : ∃ x ∈ sourcesOf s i, x.slot = k := by
  obtain ⟨u, hu, hfields⟩ := List.mem_map.mp h
  simp only [Prod.mk.injEq] at hfields
  obtain ⟨rfl, rfl, rfl⟩ := hfields
  have hkind : u.kind ≠ .result := fun hr => ho ((uses_kind_eq_result_iff _ i u hu).mp hr)
  have hsources : u.sources = (List.range u.extent).map fun j => ⟨u.operand, u.base.toNat + j, j / u.size, u.kind⟩ := by
    unfold Use.sources
    split
    · contradiction
    · rfl
  refine ⟨⟨u.operand, k, (k - u.base.toNat) / u.size, u.kind⟩, List.mem_flatMap.mpr ⟨u, hu, ?_⟩, rfl⟩
  rw [hsources]
  exact List.mem_map.mpr ⟨k - u.base.toNat, List.mem_range.mpr (by omega), by simp [Nat.add_sub_cancel' hk]⟩

/-! ### How a command ends -/

/-- Why a command has no effect: an error with a code, or a source slot that exists and holds no value (R172, D37). -/
def CommandStop (i : Instr) (s : State) : Stop → Prop
  | .raise e => e.code ≠ .none
  | .fault f => ∃ x ∈ sourcesOf s i, f = .unwrittenSlot x.slot ∧ x.slot < s.nSlots ∧ s.slot x.slot = none

/-- What a successful command may do: write in its destination (R66), and give FLAG and RESULT the values of R30, R34. -/
structure CommandEffect (i : Instr) (s : State) (e : Effect) : Prop where
  writes : ∃ ws, e.writes = place (destOf s i).1 ws ∧ ws.length ≤ (destOf s i).2
  flag : setsFlag i = false → e.flag = false
  result : (∀ d a w, i ≠ .wnaf d a w) → e.result = 0

/-- What a command computes before its completion. -/
def CommandResult (i : Instr) (s : State) : Except Stop Effect → Prop
  | .ok e => CommandEffect i s e
  | .error st => CommandStop i s st

/-- The outcome is a completion or a fault that the command may have. -/
def Ends (i : Instr) (s : State) (o : Host.Outcome State Fault Refusal) : Prop :=
  ∃ r, CommandResult i s r ∧ o = finish (opcode i) s r

section Shapes

variable {i : Instr} {s : State} {α β γ : Type} {LA : Layout α} {LB : Layout β} {LD : Layout γ} {d a b : SlotAddr}

theorem commandResult_ite {p : Prop} [Decidable p] {x y : Except Stop Effect} (hx : CommandResult i s x)
    (hy : CommandResult i s y) : CommandResult i s (if p then x else y) := by
  split
  · exact hx
  · exact hy

theorem commandResult_flag {flag : Bool} (h : setsFlag i = false → flag = false) :
    CommandResult i s (.ok { flag := flag }) :=
  ⟨⟨[], rfl, Nat.zero_le _⟩, h, fun _ => rfl⟩

theorem commandResult_writeD {rest : List (Operand × SlotAddr × Nat)} {v : γ} {flag : Bool}
    (hops : operandsOf s i = (.d, d, LD.extent) :: rest) (hlen : (LD.words v).length = LD.extent)
    (hflag : setsFlag i = false → flag = false) : CommandResult i s (writeD LD d v flag) := by
  refine ⟨⟨LD.words v, ?_, ?_⟩, hflag, fun _ => rfl⟩
  · rw [destOf_of_operandsOf hops]
  · rw [destOf_of_operandsOf hops, hlen]

/-- Everything the extent check can answer (R68). -/
theorem checkExtents_cases (s : State) (os : List (Operand × SlotAddr × Nat)) :
    (checkExtents s os = .ok () ∧ ∀ x ∈ os, x.2.1.toNat + x.2.2 ≤ s.nSlots) ∨
    ∃ o base, checkExtents s os = .error (.raise ⟨.addressRange, o, base, 0⟩) := by
  induction os with
  | nil => exact .inl ⟨rfl, by simp⟩
  | cons x os ih =>
    obtain ⟨o, base, extent⟩ := x
    by_cases h : base.toNat + extent > s.nSlots
    · exact .inr ⟨o, base, if_pos h⟩
    · simpa [checkExtents, h, Nat.le_of_not_gt h] using ih

/-- After the extent check every operand fits. -/
theorem commandResult_checkExtents {os : List (Operand × SlotAddr × Nat)} {k : Unit → Except Stop Effect}
    (hk : (∀ x ∈ os, x.2.1.toNat + x.2.2 ≤ s.nSlots) → CommandResult i s (k ())) :
    CommandResult i s (checkExtents s os >>= k) := by
  obtain ⟨hok, hfit⟩ | ⟨o, base, herr⟩ := checkExtents_cases s os
  · rw [hok]
    exact hk hfit
  · rw [herr]
    exact ErrCode.noConfusion

/-- A read of an operand that fits stops at a source of the command. -/
theorem commandResult_read {o : Operand} {k : α → Except Stop Effect} (hA : LA.StopsInside) (ho : o ≠ .d)
    (hmem : (o, a, LA.extent) ∈ operandsOf s i) (hfit : a.toNat + LA.extent ≤ s.nSlots)
    (hk : ∀ x, LA.read s o 0 a.toNat = .ok x → CommandResult i s (k x)) :
    CommandResult i s (LA.read s o 0 a.toNat >>= k) := by
  cases hread : LA.read s o 0 a.toNat with
  | ok x => exact hk x hread
  | error st =>
    have hst := hA s o 0 a.toNat st hread
    cases st with
    | raise e =>
      have hcode : e.code = .outOfField := hst
      show e.code ≠ .none
      rw [hcode]
      exact ErrCode.noConfusion
    | fault f =>
      obtain ⟨n, hlo, hhi, hf, hnone⟩ := hst
      obtain ⟨x, hx, rfl⟩ := exists_source hmem ho hlo hhi
      exact ⟨x, hx, hf, by omega, hnone⟩

theorem ends_commandA {body : α → Except Stop Effect} (hA : LA.StopsInside)
    (hops : operandsOf s i = [(.a, a, LA.extent)]) (hbody : ∀ x, CommandResult i s (body x)) :
    Ends i s (commandA (opcode i) LA a s body) :=
  ⟨_, commandResult_checkExtents fun hfit =>
    commandResult_read hA (by decide) (by simp [hops]) (hfit (.a, a, _) (by simp)) fun x _ => hbody x, rfl⟩

theorem ends_commandAB {body : α → β → Except Stop Effect} (hA : LA.StopsInside) (hB : LB.StopsInside)
    (hops : operandsOf s i = [(.a, a, LA.extent), (.b, b, LB.extent)]) (hbody : ∀ x y, CommandResult i s (body x y)) :
    Ends i s (commandAB (opcode i) LA LB a b s body) :=
  ⟨_, commandResult_checkExtents fun hfit =>
    commandResult_read hA (by decide) (by simp [hops]) (hfit (.a, a, _) (by simp)) fun x _ =>
      commandResult_read hB (by decide) (by simp [hops]) (hfit (.b, b, _) (by simp)) fun y _ => hbody x y, rfl⟩

theorem ends_commandDA {n : Nat} {body : α → Except Stop Effect} (hA : LA.StopsInside)
    (hops : operandsOf s i = [(.d, d, n), (.a, a, LA.extent)])
    (hbody : ∀ x, LA.read s .a 0 a.toNat = .ok x → CommandResult i s (body x)) :
    Ends i s (commandDA (opcode i) n LA d a s body) :=
  ⟨_, commandResult_checkExtents fun hfit =>
    commandResult_read hA (by decide) (by simp [hops]) (hfit (.a, a, _) (by simp)) hbody, rfl⟩

theorem ends_commandDAB {n : Nat} {body : α → β → Except Stop Effect} (hA : LA.StopsInside) (hB : LB.StopsInside)
    (hops : operandsOf s i = [(.d, d, n), (.a, a, LA.extent), (.b, b, LB.extent)])
    (hbody : ∀ x y, CommandResult i s (body x y)) : Ends i s (commandDAB (opcode i) n LA LB d a b s body) :=
  ⟨_, commandResult_checkExtents fun hfit =>
    commandResult_read hA (by decide) (by simp [hops]) (hfit (.a, a, _) (by simp)) fun x _ =>
      commandResult_read hB (by decide) (by simp [hops]) (hfit (.b, b, _) (by simp)) fun y _ => hbody x y, rfl⟩

theorem ends_unary {f : α → γ} (hA : LA.StopsInside)
    (hlen : ∀ x, LA.read s .a 0 a.toNat = .ok x → (LD.words (f x)).length = LD.extent)
    (hops : operandsOf s i = [(.d, d, LD.extent), (.a, a, LA.extent)]) :
    Ends i s (unary (opcode i) LD LA f d a s) :=
  ends_commandDA hA hops fun x hx => commandResult_writeD hops (hlen x hx) fun _ => rfl

theorem ends_unaryFlag {f : α → γ} {g : α → Bool} (hA : LA.StopsInside)
    (hlen : ∀ x, (LD.words (f x)).length = LD.extent)
    (hops : operandsOf s i = [(.d, d, LD.extent), (.a, a, LA.extent)]) (hflag : setsFlag i = true) :
    Ends i s (unaryFlag (opcode i) LD LA f g d a s) :=
  ends_commandDA hA hops fun x _ => commandResult_writeD hops (hlen x) (by simp [hflag])

theorem ends_binary {f : α → β → γ} (hA : LA.StopsInside) (hB : LB.StopsInside)
    (hlen : ∀ v, (LD.words v).length = LD.extent)
    (hops : operandsOf s i = [(.d, d, LD.extent), (.a, a, LA.extent), (.b, b, LB.extent)]) :
    Ends i s (binary (opcode i) LD LA LB f d a b s) :=
  ends_commandDAB hA hB hops fun _ _ => commandResult_writeD hops (hlen _) fun _ => rfl

theorem ends_test1 {g : α → Bool} (hA : LA.StopsInside) (hops : operandsOf s i = [(.a, a, LA.extent)])
    (hflag : setsFlag i = true) : Ends i s (test1 (opcode i) LA g a s) :=
  ends_commandA hA hops fun _ => commandResult_flag (by simp [hflag])

theorem ends_test2 {g : α → β → Bool} (hA : LA.StopsInside) (hB : LB.StopsInside)
    (hops : operandsOf s i = [(.a, a, LA.extent), (.b, b, LB.extent)]) (hflag : setsFlag i = true) :
    Ends i s (test2 (opcode i) LA LB g a b s) :=
  ends_commandAB hA hB hops fun _ _ => commandResult_flag (by simp [hflag])

theorem ends_listCommand {run : Host.Outcome State Fault Refusal} (h : Ends i s run) :
    Ends i s (listCommand (opcode i) s run) := by
  obtain ⟨-, hrun⟩ | ⟨-, hshape⟩ := listCommand_cases (opcode i) s run
  · rwa [hrun]
  · exact ⟨.error (.raise ⟨.shape, .none, 0, s.countLatch⟩), ErrCode.noConfusion, hshape⟩

end Shapes

/-! ### The commands that are not one of the shapes alone -/

theorem ends_copy (d a : SlotAddr) (k : BitVec 8) (s : State) : Ends (.copy d a k) s (execCopy d a k s) :=
  ends_unary (stopsInside_raw _) (fun _ hread => readRaw_length hread)
    (by simp [operandsOf, usesOf, uses, Use.extent, layoutRaw])

theorem ends_ldc (d : SlotAddr) (k : BitVec 8) (s : State) : Ends (.ldc d k) s (execLdc d k s) := by
  refine ⟨_, ?_, rfl⟩
  cases hrom : romEntry k.toNat with
  | none => exact ErrCode.noConfusion
  | some ws =>
    have hops : operandsOf s (.ldc d k) = [(.d, d, ws.length)] := by
      simp [operandsOf, usesOf, uses, Use.extent, hrom]
    exact commandResult_checkExtents fun _ =>
      commandResult_writeD (LD := layoutRaw ws.length) (v := ws) hops rfl fun _ => rfl

theorem ends_fpSqrt (d a : SlotAddr) (s : State) : Ends (.fpSqrt d a) s (execFpSqrt d a s) := by
  refine ends_commandDA stopsInside_fp rfl fun x _ => ?_
  generalize x.pow ((Config.p + 1) / 4) = root
  exact commandResult_ite (commandResult_writeD (LD := layoutFp) rfl rfl nofun) ErrCode.noConfusion

theorem ends_wnaf (d a : SlotAddr) (w : BitVec 8) (s : State) : Ends (.wnaf d a w) s (execWnaf d a w s) := by
  unfold execWnaf
  split
  · exact ⟨.error (.raise ⟨.reservedField, .none, 0, 0⟩), ErrCode.noConfusion, rfl⟩
  · exact ends_commandDA (stopsInside_scalar _) rfl fun k _ =>
      ⟨⟨_, rfl, le_rfl⟩, fun _ => rfl, fun h => absurd rfl (h d a w)⟩

theorem ends_fromwnaf (d a : SlotAddr) (s : State) : Ends (.fromwnaf d a) s (execFromwnaf d a s) := by
  refine ends_commandDA stopsInside_wn rfl fun x _ => commandResult_ite ErrCode.noConfusion ?_
  exact commandResult_writeD (LD := layoutSC) rfl rfl fun _ => rfl

section Groups

variable {F : Type} {G : Group F} [DecidableEq F] {i : Instr} {s : State} {d a b : SlotAddr}

theorem ends_groupAddm (hG : G.layout.StopsInside) (hlen : ∀ P, (G.layout.words P).length = G.layout.extent)
    (hops : operandsOf s i = [(.d, d, G.layout.extent), (.a, a, G.layout.extent), (.b, b, G.layout.extent)]) :
    Ends i s (groupAddm G (opcode i) d a b s) :=
  ends_commandDAB hG hG hops fun _ _ =>
    commandResult_ite (commandResult_writeD hops (hlen _) fun _ => rfl) ErrCode.noConfusion

theorem ends_groupCheck (hG : G.layout.StopsInside) (hops : operandsOf s i = [(.a, a, G.layout.extent)])
    (hflag : setsFlag i = true) : Ends i s (groupCheck G (opcode i) a s) :=
  ends_commandA hG hops fun _ => commandResult_ite ErrCode.noConfusion
    (commandResult_ite ErrCode.noConfusion (commandResult_flag (by simp [hflag])))

theorem ends_groupAffb (hG : G.layout.StopsInside) (hlaw : Lawful G.layout)
    (hops : operandsOf s i = [(.d, d, s.countLatch.toNat * G.layout.extent), (.a, a, s.countLatch.toNat * G.layout.extent)]) :
    Ends i s (groupAffb G (opcode i) d a s) :=
  ends_listCommand (ends_unary (hG.list _)
    (fun _ hread => layoutList_words_length hlaw ((List.length_map _).trans (readListFrom_length hread))) hops)

theorem ends_groupMsm (hG : G.layout.StopsInside) (hlen : ∀ P, (G.layout.words P).length = G.layout.extent)
    (hops : operandsOf s i = [(.d, d, G.layout.extent), (.a, a, s.countLatch.toNat * G.layout.extent),
      (.b, b, s.countLatch.toNat * 1)]) :
    Ends i s (groupMsm G (opcode i) d a b s) :=
  ends_listCommand (ends_binary (hG.list _) ((stopsInside_scalar _).list _) hlen hops)

end Groups

/-- How every command ends: the inversion lemma of `exec`. -/
theorem exec_ends (i : Instr) (s : State) : Ends i s (exec i s) := by
  cases i with
  | nop => exact ⟨.ok {}, commandResult_flag fun _ => rfl, rfl⟩
  | copy d a k => exact ends_copy d a k s
  | ldc d k => exact ends_ldc d k s
  | fpSqrt d a => exact ends_fpSqrt d a s
  | wnaf d a w => exact ends_wnaf d a w s
  | fromwnaf d a => exact ends_fromwnaf d a s
  | fpAdd d a b | fpSub d a b | fpMul d a b =>
    exact ends_binary stopsInside_word stopsInside_word (fun _ => rfl) rfl
  | fpDbl d a | fpNeg d a | fpSqr d a | fpTomont d a | fpFrommont d a =>
    exact ends_unary stopsInside_word (fun _ _ => rfl) rfl
  | fpInv d a => exact ends_unaryFlag stopsInside_word (fun _ => rfl) rfl rfl
  | fpIsqnr a => exact ends_test1 stopsInside_fp rfl rfl
  | fpEq a b => exact ends_test2 stopsInside_fp stopsInside_fp rfl rfl
  | fpIszero a => exact ends_test1 stopsInside_word rfl rfl
  | fp2Add d a b | fp2Sub d a b | fp2Mul d a b =>
    exact ends_binary stopsInside_fp2 stopsInside_fp2 lawful_fp2.length rfl
  | fp2Dbl d a | fp2Neg d a | fp2Sqr d a | fp2Conj d a | fp2Frob d a k =>
    exact ends_unary stopsInside_fp2 (fun _ _ => lawful_fp2.length _) rfl
  | fp2Inv d a => exact ends_unaryFlag stopsInside_fp2 (fun _ => lawful_fp2.length _) rfl rfl
  | fp2Eq a b => exact ends_test2 stopsInside_fp2 stopsInside_fp2 rfl rfl
  | fp6Add d a b | fp6Sub d a b | fp6Mul d a b =>
    exact ends_binary stopsInside_fp6 stopsInside_fp6 lawful_fp6.length rfl
  | fp6Dbl d a | fp6Neg d a | fp6Sqr d a | fp6Frob d a k =>
    exact ends_unary stopsInside_fp6 (fun _ _ => lawful_fp6.length _) rfl
  | fp6Inv d a => exact ends_unaryFlag stopsInside_fp6 (fun _ => lawful_fp6.length _) rfl rfl
  | fp6Mulby01 d a b => exact ends_binary stopsInside_fp6 stopsInside_sparse2 lawful_fp6.length rfl
  | fp6Mulby1 d a b => exact ends_binary stopsInside_fp6 stopsInside_fp2 lawful_fp6.length rfl
  | fp6Eq a b => exact ends_test2 stopsInside_fp6 stopsInside_fp6 rfl rfl
  | fp12Add d a b | fp12Sub d a b | fp12Mul d a b =>
    exact ends_binary stopsInside_fp12 stopsInside_fp12 lawful_fp12.length rfl
  | fp12Dbl d a | fp12Neg d a | fp12Sqr d a | fp12Conj d a | fp12Frob d a k | fp12Csqr d a | finalexp d a | cexp d a =>
    exact ends_unary stopsInside_fp12 (fun _ _ => lawful_fp12.length _) rfl
  | fp12Inv d a => exact ends_unaryFlag stopsInside_fp12 (fun _ => lawful_fp12.length _) rfl rfl
  | fp12Mulby014 d a b | fp12Mulby034 d a b =>
    exact ends_binary stopsInside_fp12 stopsInside_sparse3 lawful_fp12.length rfl
  | fp12Eq a b => exact ends_test2 stopsInside_fp12 stopsInside_fp12 rfl rfl
  | g1Add d a b | g1Sub d a b => exact ends_binary stopsInside_g1 stopsInside_g1 lawful_g1.length rfl
  | g1Addm d a b => exact ends_groupAddm stopsInside_g1 lawful_g1.length rfl
  | g1Dbl d a | g1Neg d a | g1Affine d a => exact ends_unary stopsInside_g1 (fun _ _ => lawful_g1.length _) rfl
  | g1Mul d a b | g1Mulct d a b =>
    exact ends_binary stopsInside_g1 (stopsInside_scalar _) lawful_g1.length rfl
  | g1Eq a b => exact ends_test2 stopsInside_g1 stopsInside_g1 rfl rfl
  | g1Iszero a | g1Oncurve a | g1Insub a | g1Isaffine a => exact ends_test1 stopsInside_g1 rfl rfl
  | g1Check a => exact ends_groupCheck stopsInside_g1 rfl rfl
  | g1Affb d a => exact ends_groupAffb stopsInside_g1 lawful_g1 rfl
  | g1Msm d a b => exact ends_groupMsm stopsInside_g1 lawful_g1.length rfl
  | g2Add d a b | g2Sub d a b => exact ends_binary stopsInside_g2 stopsInside_g2 lawful_g2.length rfl
  | g2Addm d a b => exact ends_groupAddm stopsInside_g2 lawful_g2.length rfl
  | g2Dbl d a | g2Neg d a | g2Affine d a => exact ends_unary stopsInside_g2 (fun _ _ => lawful_g2.length _) rfl
  | g2Mul d a b | g2Mulct d a b =>
    exact ends_binary stopsInside_g2 (stopsInside_scalar _) lawful_g2.length rfl
  | g2Eq a b => exact ends_test2 stopsInside_g2 stopsInside_g2 rfl rfl
  | g2Iszero a | g2Oncurve a | g2Insub a | g2Isaffine a => exact ends_test1 stopsInside_g2 rfl rfl
  | g2Check a => exact ends_groupCheck stopsInside_g2 rfl rfl
  | g2Affb d a => exact ends_groupAffb stopsInside_g2 lawful_g2 rfl
  | g2Msm d a b => exact ends_groupMsm stopsInside_g2 lawful_g2.length rfl
  | miller d a b | pair d a b =>
    exact ends_listCommand (ends_binary (stopsInside_g1.list _) (stopsInside_g2.list _) lawful_fp12.length rfl)
  | pcheck a b => exact ends_listCommand (ends_test2 (stopsInside_g1.list _) (stopsInside_g2.list _) rfl rfl)

/-- A command that goes on to a next state succeeded with an effect it may have, or failed with an error code. -/
theorem exec_next_cases {i : Instr} {s t : State} (h : exec i s = .next t) :
    (∃ e, CommandEffect i s e ∧ t = s.succeed e) ∨ ∃ e : CmdError, e.code ≠ .none ∧ t = s.failWith (opcode i) e := by
  obtain ⟨r, hr, hexec⟩ := exec_ends i s
  match r with
  | .ok e => exact .inl ⟨e, hr, by simpa [hexec, finish] using h.symm⟩
  | .error (.raise e) => exact .inr ⟨e, hr, by simpa [hexec, finish] using h.symm⟩
  | .error (.fault f) => simp [hexec, finish] at h

/-- A command faults at one of its source slots, which exists and holds no value (D37). -/
theorem exec_fault_source {i : Instr} {s : State} {f : Fault} (h : exec i s = .fault f) :
    ∃ x ∈ sourcesOf s i, f = .unwrittenSlot x.slot ∧ x.slot < s.nSlots ∧ s.slot x.slot = none := by
  obtain ⟨r, hr, hexec⟩ := exec_ends i s
  match r with
  | .ok e => simp [hexec, finish] at h
  | .error (.raise e) => simp [hexec, finish] at h
  | .error (.fault g) =>
    obtain rfl : g = f := by simpa [hexec, finish] using h
    exact hr

/-! ### Operand memory after a command -/

theorem slotAddress_mono {m n : Nat} (h : m ≤ n) : slotAddress m ≤ slotAddress n :=
  Nat.add_le_add_left (Nat.mul_le_mul_left slotBytes h) Config.omBase

theorem CommandEffect.read_outsideDest {i : Instr} {s : State} {e : Effect} (he : CommandEffect i s e) {addr : Nat}
    (h : outsideDest s i addr = true) : Memory.read (Memory.commit s.om e.writes) addr = Memory.read s.om addr := by
  obtain ⟨ws, hws, hlen⟩ := he.writes
  rw [outsideDest, Bool.or_eq_true, decide_eq_true_eq, decide_eq_true_eq] at h
  rw [hws]
  exact Memory.read_commit_place _ _ _ (h.imp_right (slotAddress_mono (Nat.add_le_add_left hlen _)).trans)

theorem CommandEffect.commit_of_no_d {i : Instr} {s : State} {e : Effect} (he : CommandEffect i s e)
    (h : (form i).d = none) : Memory.commit s.om e.writes = s.om := by
  obtain ⟨ws, hws, hlen⟩ := he.writes
  rw [destOf_of_no_d s h] at hws hlen
  rw [hws, List.length_eq_zero_iff.mp (Nat.le_zero.mp hlen)]
  rfl

end Sys2Proof.Machine

namespace Sys2Proof.Proofs

open Sys2Proof.Machine

/-- Settles O11: the registers by `finish_keeps`, operand memory because a success writes in its destination only
(`CommandEffect`) and a failure writes nothing. -/
theorem commandFrame : Obligations.CommandFrame := by
  intro i s t h
  obtain ⟨r, -, hexec⟩ := exec_ends i s
  obtain ⟨hparams, hirq, hcount, hcmd, hsched, hhost, hstalled, hanswers, -⟩ := finish_keeps (hexec ▸ h)
  refine ⟨hparams, hirq, hcount, hcmd, hsched, hhost, hstalled, hanswers, ?_⟩
  obtain ⟨e, he, rfl⟩ | ⟨e, hcode, rfl⟩ := exec_next_cases h
  · exact ⟨fun _ => rfl, fun _ => he.read_outsideDest, he.commit_of_no_d⟩
  · exact ⟨fun hnone => absurd hnone hcode, fun _ _ => rfl, fun _ => rfl⟩

/-- Settles O10, by the inversion of `exec`. -/
theorem onlyUnwrittenSourcesFault : Obligations.OnlyUnwrittenSourcesFault :=
  fun _ _ _ h => exec_fault_source h

/-- Settles O12: a success takes FLAG and RESULT from its effect, a failure leaves the 0 of acceptance. -/
theorem flagAndResultComeFromTheirCommands : Obligations.FlagAndResultComeFromTheirCommands := by
  intro i s t hacc h
  simp only [accepted, Bool.and_eq_true, Bool.not_eq_true', decide_eq_true_eq] at hacc
  obtain ⟨⟨⟨⟨-, hflag⟩, hresult⟩, -⟩, -⟩ := hacc
  obtain ⟨e, he, rfl⟩ | ⟨e, -, rfl⟩ := exec_next_cases h
  · exact ⟨he.flag, he.result, fun herr => absurd rfl herr⟩
  · exact ⟨fun _ => hflag, fun _ => hresult, fun _ => ⟨hflag, hresult⟩⟩

end Sys2Proof.Proofs
end

section
/-! PROOFS. Whose step it is and what the host port does with a register: the sequencer's step (O6), the reset state (O15),
register reads (O55) and writes (O56). -/

namespace Sys2Proof.Machine

/-! ### The mover of a step -/

theorem nextMove_of_runsNext {s t : State} (h : RunsNext s t) : nextMove s = .run t ∧ t.cmd = s.cmd := by
  cases h with
  | unscheduled busy sched => simp [nextMove, busy, sched]
  | chosen moves busy sched => simp [nextMove, busy, sched]
  | hostIdle moves busy sched none => simp [nextMove, busy, sched, none]

theorem step_of_decode_ok {s t : State} {i : Instr} (h : RunsNext s t) (hi : decode s.cmd = .ok i) :
    step s = exec i t := by
  obtain ⟨hmove, hcmd⟩ := nextMove_of_runsNext h
  simp [step, hmove, hcmd, hi]

theorem step_of_decode_error {s t : State} {e : DecodeError} (h : RunsNext s t) (he : decode s.cmd = .error e) :
    step s = .next (t.rejectWord e) := by
  obtain ⟨hmove, hcmd⟩ := nextMove_of_runsNext h
  simp [step, hmove, hcmd, he]

theorem decode_of_decodeTableWord {nbits w : Nat} {i : Instr} (h : decodeTableWord nbits w = some i) :
    decode (BitVec.ofNat 64 (w % 2 ^ nbits)) = .ok i := by
  unfold decodeTableWord at h
  cases hd : decode (BitVec.ofNat 64 (w % 2 ^ nbits)) with
  | ok j => simpa [hd, Except.toOption] using h
  | error e => simp [hd, Except.toOption] at h

theorem runsNext_withFetchWord (s : State) (nbits w : Nat) :
    RunsNext (s.withFetchWord nbits w) (s.withFetchWord nbits w) :=
  .unscheduled _ rfl rfl

/-- Which accesses stall depends on the parameters alone (R48). -/
theorem stalls_of_params {s t : State} (h : t.params = s.params) (e : HostEvent) : stalls t e = stalls s e := by
  have hslots : t.nSlots = s.nSlots := by simp only [State.nSlots, h]
  have hregion : region t = region s := by
    funext addr
    simp only [region, hslots]
  cases e <;> simp only [stalls, hregion]

/-- Where the port performs an event, the step is its performance. -/
theorem step_of_performsNext {s t : State} {e : HostEvent} (h : PerformsNext s e t) : step s = perform t e := by
  cases h with
  | held rest idle stalled => simp [step, nextMove, idleMove, idle, stalled]
  | issued rest idle none host => simp [step, nextMove, idleMove, idle, none, host]
  | passing rest moves busy turn host free =>
    have hmove : nextMove s = .host (hostWhileBusy { s with sched := moves, host := rest } e) := by
      simp [nextMove, busy, turn, host]
    have hfree : stalls { s with sched := moves, host := rest } e = false := (stalls_of_params rfl e).trans free
    simp [step, hmove, hostWhileBusy, hfree]

/-- What the port leaves for the event to see: every register. -/
theorem PerformsNext.exists_eq {s t : State} {e : HostEvent} (h : PerformsNext s e t) :
    ∃ moves events held, t = { s with sched := moves, host := events, stalled := held } := by
  cases h with
  | held rest idle stalled => exact ⟨_, _, _, rfl⟩
  | issued rest idle none host => exact ⟨_, _, _, rfl⟩
  | passing rest moves busy turn host free => exact ⟨_, _, _, rfl⟩

/-! ### Registers behind the host port -/

theorem region_csr (s : State) {offset : HostAddr} (h : offset.toNat < 0x1000) : region s offset = .csr offset.toNat :=
  if_pos h

theorem legalAccess_aligned {addr : HostAddr} (h : addr.toNat % 8 = 0) : legalAccess addr 8 = true := by
  simp [legalAccess, h]

theorem step_csr_read {s t : State} {offset : HostAddr} (h : PerformsNext s (.read offset 8) t)
    (hcsr : offset.toNat < 0x1000) (halign : offset.toNat % 8 = 0) :
    step s = .next (t.answer (.data (csrRead t offset.toNat))) := by
  simp [step_of_performsNext h, perform, performRead, legalAccess_aligned halign, region_csr t hcsr]

theorem step_csr_write {s t : State} {offset : HostAddr} {v : Word} (h : PerformsNext s (.write offset 8 v) t)
    (hcsr : offset.toNat < 0x1000) (halign : offset.toNat % 8 = 0) :
    step s = .next ((csrWrite t offset.toNat v).answer .written) := by
  simp [step_of_performsNext h, perform, performWrite, legalAccess_aligned halign, region_csr t hcsr]

theorem csrRead_of_performsNext {s t : State} {e : HostEvent} (h : PerformsNext s e t) (offset : Nat) :
    csrRead t offset = csrRead s offset := by
  obtain ⟨moves, events, held, rfl⟩ := h.exists_eq
  rfl

theorem csrRead_reserved (s : State) {offset : Nat} (h : 0x048 ≤ offset) : csrRead s offset = 0 := by
  unfold csrRead
  split
  case h_10 => rfl
  all_goals omega

theorem writeCtrl_of_no_srst (s : State) {v : Word} (h : v.getLsbD 1 = false) :
    writeCtrl s v = { s with irqEn := v.getLsbD 0 } :=
  if_neg (h ▸ Bool.false_ne_true)

theorem irq_writeCtrl (s : State) {v : Word} (h : v.getLsbD 0 = false) : irq (writeCtrl s v) = false := by
  unfold writeCtrl
  split
  · rfl
  · simp only [irq, h, Bool.false_and]

theorem irq_writeStatus (s : State) {v : Word} (h : v.getLsbD 1 = true) : irq (writeStatus s v) = false := by
  simp [irq, writeStatus, h]

theorem csrWrite_ignored (s : State) {offset : Nat} (v : Word) (hctrl : offset ≠ 0x010) (hstatus : offset ≠ 0x018)
    (hcount : offset ≠ 0x030) (hcmd : offset ≠ 0x040) : csrWrite s offset v = s := by
  unfold csrWrite
  split
  · exact absurd rfl hctrl
  · exact absurd rfl hstatus
  · exact absurd rfl hcount
  · exact absurd rfl hcmd
  · rfl

/-! ### The fields of the register words -/

theorem ctrlWord_fields (s : State) : (ctrlWord s).getLsbD 0 = s.irqEn ∧ ctrlWord s >>> 1 = 0 := by
  unfold ctrlWord
  generalize s.irqEn = irqEn
  revert irqEn
  decide

theorem errFlag_eq (s : State) : errFlag s = decide (s.errCode ≠ .none) := by
  cases h : s.errCode <;> simp [errFlag, h]

theorem statusWord_fields (s : State) :
    (statusWord s).getLsbD 0 = s.busy ∧ (statusWord s).getLsbD 1 = s.done ∧ (statusWord s).getLsbD 2 = s.flag ∧
      (statusWord s).getLsbD 3 = decide (s.errCode ≠ .none) ∧ (statusWord s).getLsbD 4 = s.stickyErr ∧
      statusWord s >>> 5 = 0 := by
  rw [← errFlag_eq]
  unfold statusWord
  generalize s.busy = busy, s.done = done, s.flag = flag, errFlag s = err, s.stickyErr = sticky
  revert busy done flag err sticky
  decide

theorem errCodeWord_toNat (s : State) : (errCodeWord s).toNat = s.errCode.number.toNat :=
  BitVec.toNat_setWidth_of_le (by decide)

theorem ErrInfo.word_fields (e : ErrInfo) :
    e.word.extractLsb' 0 8 = e.opc ∧ e.word.extractLsb' 8 2 = e.opnd.code ∧ e.word.extractLsb' 10 6 = 0 ∧
      e.word.extractLsb' 16 16 = e.slot ∧ e.word.extractLsb' 32 32 = e.index := by
  have above {lo len : Nat} (h : 10 ≤ lo) :
      e.word.extractLsb' lo len = (e.index ++ e.slot ++ (0 : BitVec 6)).extractLsb' (lo - 8 - 2) len :=
    (BitVec.extractLsb'_append_eq_of_le (by omega)).trans (BitVec.extractLsb'_append_eq_of_le (by omega))
  have aboveReserved {lo len : Nat} (h : 16 ≤ lo) :
      e.word.extractLsb' lo len = (e.index ++ e.slot).extractLsb' (lo - 8 - 2 - 6) len :=
    (above (by omega)).trans (BitVec.extractLsb'_append_eq_of_le (by omega))
  refine ⟨BitVec.extractLsb'_append_eq_right, ?_, ?_, ?_, ?_⟩
  · exact (BitVec.extractLsb'_append_eq_of_le (by decide)).trans BitVec.extractLsb'_append_eq_right
  · exact (above (by decide)).trans BitVec.extractLsb'_append_eq_right
  · exact (aboveReserved (by decide)).trans BitVec.extractLsb'_append_eq_right
  · exact (aboveReserved (by decide)).trans BitVec.extractLsb'_append_eq_left

theorem resetWith_paramsWord_nSlots {nSlots : Nat} (maxCount : Nat) (h : nSlots < 2 ^ 32) :
    (State.resetWith (paramsWord nSlots maxCount)).nSlots = nSlots := by
  have hword : (paramsWord nSlots maxCount).extractLsb' 0 32 = BitVec.ofNat 32 nSlots :=
    BitVec.extractLsb'_append_eq_right
  rw [State.nSlots, State.resetWith, hword, BitVec.toNat_ofNat, Nat.mod_eq_of_lt h]

theorem resetWith_paramsWord_maxCount (nSlots : Nat) {maxCount : Nat} (h : maxCount < 2 ^ 32) :
    (State.resetWith (paramsWord nSlots maxCount)).maxCount = maxCount := by
  have hword : (paramsWord nSlots maxCount).extractLsb' 32 32 = BitVec.ofNat 32 maxCount :=
    BitVec.extractLsb'_append_eq_left
  rw [State.maxCount, State.resetWith, hword, BitVec.toNat_ofNat, Nat.mod_eq_of_lt h]

/-! ### The reset state -/

theorem inv_resetWith {params : Word} (h : paramsOk (State.resetWith params) = true) : Inv (State.resetWith params) where
  canonical := List.Pairwise.nil
  inWindow := nofun
  params := h
  running := nofun
  idleLatch _ := rfl
  errorExcludesResult h := absurd rfl h
  noErrorNoInfo _ := rfl
  held := nofun

theorem paramsOk_resetWith {nSlots maxCount : Nat} (hmin : 64 ≤ nSlots) (hmax : nSlots ≤ 65536) (hcount : 1 ≤ maxCount)
    (hcountMax : maxCount < 2 ^ 32) : paramsOk (State.resetWith (paramsWord nSlots maxCount)) = true := by
  have hslots := resetWith_paramsWord_nSlots maxCount (show nSlots < 2 ^ 32 by omega)
  simp [paramsOk, hslots, resetWith_paramsWord_maxCount nSlots hcountMax, hmin, hmax, hcount]

theorem statusWord_resetWith (params : Word) : statusWord (State.resetWith params) = 0 := by
  simp [statusWord, errFlag, State.resetWith]

theorem ErrInfo.word_zero : ErrInfo.zero.word = 0 := by decide

theorem csrRead_resetWith (params : Word) {offset : Nat} (hid : offset ≠ 0x000) (hparams : offset ≠ 0x008) :
    csrRead (State.resetWith params) offset = 0 := by
  unfold csrRead
  split
  · exact absurd rfl hid
  · exact absurd rfl hparams
  case h_4 => exact statusWord_resetWith params
  case h_6 => exact ErrInfo.word_zero
  all_goals rfl

end Sys2Proof.Machine

namespace Sys2Proof.Proofs

open Sys2Proof.Machine

/-- Settles O6: the sequencer's move leaves the latched word (`nextMove_of_runsNext`), and the schedule of `withFetchWord`
is empty. -/
theorem stepRunsTheLatchedCommand : Obligations.StepRunsTheLatchedCommand :=
  ⟨fun _ _ _ => step_of_decode_ok, fun _ _ _ => step_of_decode_error, fun s nbits w _ h =>
    step_of_decode_ok (runsNext_withFetchWord s nbits w) (decode_of_decodeTableWord h)⟩

/-- Settles O15: the fields of `State.resetWith`, and the two halves of PARAMS read back (R27). -/
theorem resetStateIsAsSpecified : Obligations.ResetStateIsAsSpecified := by
  refine ⟨inv_resetWith (paramsOk_resetWith (by decide) (by decide) (by decide) (by decide)), ?_⟩
  intro nSlots maxCount hmin hmax hcount hcountMax
  exact ⟨inv_resetWith (paramsOk_resetWith hmin hmax hcount hcountMax), rfl,
    resetWith_paramsWord_nSlots maxCount (by omega), resetWith_paramsWord_maxCount nSlots hcountMax,
    fun _ => csrRead_resetWith _, rfl, rfl, fun _ => rfl⟩

/-- Settles O55: the read answers with `csrRead`, which the port's queues do not enter, and each register word is its
fields. -/
theorem registerReads : Obligations.RegisterReads := by
  refine ⟨fun s t offset hcsr halign h => ⟨csrRead s offset.toNat, ?_, ?_⟩, ?_⟩
  · rw [step_csr_read h hcsr halign, csrRead_of_performsNext h]
    rfl
  · refine ⟨?_, ?_, ?_, ?_, ?_, ?_, ?_, ?_, ?_, csrRead_reserved s⟩ <;> rintro rfl
    · rfl
    · rfl
    · exact ctrlWord_fields s
    · exact statusWord_fields s
    · exact errCodeWord_toNat s
    · exact s.errInfo.word_fields
    · exact BitVec.toNat_setWidth_of_le (by decide)
    · rfl
    · rfl
  · intro s offset hcsr
    simp [stalls, region_csr s hcsr]

/-- Settles O56: the write is `csrWrite` of its offset, by cases on the register. -/
theorem registerWrites : Obligations.RegisterWrites := by
  intro s t offset v hcsr halign hcmd h
  have hstep := step_csr_write h hcsr halign
  refine ⟨?_, ?_, ?_, ?_, ?_⟩
  · rintro rfl hsrst
    have hwrite : csrWrite t (0x010 : HostAddr).toNat v = { t with irqEn := v.getLsbD 0 } :=
      writeCtrl_of_no_srst t hsrst
    rw [hstep, hwrite]
    rfl
  · rintro rfl
    exact hstep
  · rintro rfl
    rw [hstep, ← BitVec.setWidth_eq_extractLsb' (by decide)]
    rfl
  · intro hctrl hstatus hcount
    rw [hstep, csrWrite_ignored t v (by bv_omega) (by bv_omega) (by bv_omega) (by bv_omega)]
    rfl
  · intro u hu
    rw [hstep] at hu
    cases hu
    rintro (⟨rfl, hdone⟩ | ⟨rfl, hirq⟩)
    · exact irq_writeStatus t hdone
    · exact irq_writeCtrl t hirq

end Sys2Proof.Proofs
end

section
/-! PROOFS. What a step keeps (O14): the host port's events and the sequencer's commands each keep the invariant. A command
that succeeds has passed the extent check (`exec_extents_cases`), so its writes stay in the OM window. -/

namespace Sys2Proof.Machine

/-! ### The extent check comes first -/

/-- The command checks its extents before anything else (R175 check 4) and goes on with `k`. -/
def ChecksExtents (i : Instr) (s : State) (o : Host.Outcome State Fault Refusal) : Prop :=
  ∃ k : Unit → Except Stop Effect, o = finish (opcode i) s (checkExtents s (operandsOf s i) >>= k)

/-- A check before the extents failed: the AUX range of R73 or the count of R67. -/
def FailsBeforeExtents (i : Instr) (s : State) (o : Host.Outcome State Fault Refusal) : Prop :=
  (WellFormed i = false ∨ shapeOk s i = false) ∧ ∃ e : CmdError, e.code ≠ .none ∧ o = .next (s.failWith (opcode i) e)

theorem listCommand_extents_cases {i : Instr} {s : State} {run : Host.Outcome State Fault Refusal}
    (hlist : isListCommand i = true) (h : ChecksExtents i s run) :
    ChecksExtents i s (listCommand (opcode i) s run) ∨ FailsBeforeExtents i s (listCommand (opcode i) s run) := by
  obtain ⟨-, hrun⟩ | ⟨hcount, hshape⟩ := listCommand_cases (opcode i) s run
  · exact .inl (by rwa [hrun])
  · exact .inr ⟨.inr (by simp [shapeOk, hlist, hcount]), _, ErrCode.noConfusion, hshape⟩

/-- What every command does first. -/
theorem exec_extents_cases (i : Instr) (s : State) :
    ChecksExtents i s (exec i s) ∨ FailsBeforeExtents i s (exec i s) := by
  cases i with
  | nop => exact .inl ⟨fun _ => .ok {}, rfl⟩
  | copy d a k =>
    have hops : operandsOf s (.copy d a k) = [(.d, d, k.toNat + 1), (.a, a, k.toNat + 1)] := by
      simp [operandsOf, usesOf, uses, Use.extent]
    rw [ChecksExtents, hops]
    exact .inl ⟨_, rfl⟩
  | ldc d k =>
    cases hrom : romEntry k.toNat with
    | none =>
      have hindex : ¬ k.toNat < 10 := by
        intro h
        interval_cases hk : k.toNat <;> cases hrom
      exact .inr ⟨.inl (by simp [WellFormed, hindex]), ⟨.reservedField, .none, 0, 0⟩, ErrCode.noConfusion,
        by simp only [exec, execLdc, hrom]; rfl⟩
    | some ws =>
      have hops : operandsOf s (.ldc d k) = [(.d, d, ws.length)] := by
        simp [operandsOf, usesOf, uses, Use.extent, hrom]
      exact .inl ⟨fun _ => .ok { writes := place d.toNat ws }, by simp only [exec, execLdc, hrom, hops]; rfl⟩
  | wnaf d a w =>
    by_cases hw : w.toNat < 2 ∨ w.toNat > 8
    · refine .inr ⟨.inl ?_, ⟨.reservedField, .none, 0, 0⟩, ErrCode.noConfusion, if_pos hw⟩
      simp only [WellFormed, Bool.and_eq_false_iff, decide_eq_false_iff_not]
      omega
    · exact .inl ⟨_, if_neg hw⟩
  | g1Affb d a | g2Affb d a | g1Msm d a b | g2Msm d a b | miller d a b | pair d a b | pcheck a b =>
    exact listCommand_extents_cases rfl ⟨_, rfl⟩
  | _ => exact .inl ⟨_, rfl⟩

/-- A command that ends without an error has all its operands inside operand memory. -/
theorem extentsOk_of_exec {i : Instr} {s t : State} (h : exec i s = .next t) (hcode : t.errCode = .none) :
    extentsOk s i = true := by
  obtain ⟨k, hexec⟩ | ⟨-, e, he, hexec⟩ := exec_extents_cases i s
  · obtain ⟨-, hfit⟩ | ⟨o, base, herr⟩ := checkExtents_cases s (operandsOf s i)
    · exact List.all_eq_true.mpr fun u hu => decide_eq_true (hfit _ (List.mem_map_of_mem hu))
    · rw [hexec, herr] at h
      cases h
      cases hcode
  · rw [hexec] at h
    cases h
    exact absurd hcode he

theorem dest_inside_of_extentsOk {i : Instr} {s : State} (h : extentsOk s i = true) :
    (destOf s i).1 + (destOf s i).2 ≤ s.nSlots := by
  unfold destOf
  split
  · next u hu => exact of_decide_eq_true (List.all_eq_true.mp h u (List.mem_of_find?_eq_some hu))
  · exact Nat.zero_le _

/-! ### Operand memory stays in its window -/

/-- Every byte of the memory lies in the OM window of `n` slots (R42). -/
def Memory.InWindow (n : Nat) (m : Memory) : Prop := ∀ c ∈ m, Config.omBase ≤ c.1 ∧ c.1 < slotAddress n

theorem Memory.InWindow.commit_place {n : Nat} {m : Memory} (h : m.InWindow n) {base : Nat} {ws : List SlotWord}
    (hfit : base + ws.length ≤ n) : (Memory.commit m (place base ws)).InWindow n := by
  intro c hc
  obtain ⟨hlo, hhi⟩ | hold := Memory.mem_commit_place hc
  · exact ⟨(Nat.le_add_right _ _).trans hlo, hhi.trans_le (slotAddress_mono hfit)⟩
  · exact h c hold

theorem Memory.InWindow.writeLimb {n : Nat} {m : Memory} (h : m.InWindow n) {a : Nat} (v : Word) (hlo : Config.omBase ≤ a)
    (hhi : a + limbBytes ≤ slotAddress n) : (Memory.writeLimb m a v).InWindow n := by
  intro c hc
  obtain ⟨hclo, hchi⟩ | hold := Memory.mem_writeBytes hc
  · rw [bytesOf_length] at hchi
    exact ⟨hlo.trans hclo, hchi.trans_le hhi⟩
  · exact h c hold

/-- A limb that begins in the window ends in it, because a slot is a whole number of limbs (R44). -/
theorem limb_inside_window {a n : Nat} (halign : a % 8 = 0) (h : a < slotAddress n) : a + limbBytes ≤ slotAddress n := by
  simp only [slotAddress, Config.omBase, slotBytes, limbBytes] at h ⊢
  omega

/-! ### What keeps the invariant -/

section KeepsInv

variable {s t : State} (hs : Inv s)
include hs

theorem Inv.accepted_fields (hbusy : s.busy = true) :
    s.flag = false ∧ s.result = 0 ∧ s.errCode = .none ∧ s.errInfo = .zero := by
  have hacc := hs.running hbusy
  simp only [accepted, Bool.and_eq_true, Bool.not_eq_true', decide_eq_true_eq] at hacc
  obtain ⟨⟨⟨⟨-, hflag⟩, hresult⟩, hcode⟩, hinfo⟩ := hacc
  exact ⟨hflag, hresult, hcode, hinfo⟩

theorem Inv.answer (r : Answer) : Inv (s.answer r) := { hs with }

theorem Inv.accept (w : Word) : Inv (s.accept w) :=
  { hs with
    running := fun _ => rfl
    idleLatch := nofun
    errorExcludesResult := fun h => absurd rfl h
    noErrorNoInfo := fun _ => rfl }

theorem Inv.softReset : Inv s.softReset :=
  { hs with
    running := nofun
    idleLatch := fun _ => rfl
    errorExcludesResult := fun h => absurd rfl h
    noErrorNoInfo := fun _ => rfl }

theorem Inv.hardReset : Inv s.hardReset :=
  { hs.softReset with
    canonical := List.Pairwise.nil
    inWindow := nofun }

theorem Inv.writeCtrl (v : Word) : Inv (writeCtrl s v) := by
  unfold Machine.writeCtrl
  split
  · exact hs.softReset
  · exact { hs with }

/-- Write-1-to-clear leaves the DONE 0 of a running command. -/
theorem Inv.writeStatus (v : Word) : Inv (writeStatus s v) :=
  { hs with
    running := fun hbusy => by
      have hacc := hs.running hbusy
      simp only [accepted, Bool.and_eq_true, Bool.not_eq_true', decide_eq_true_eq] at hacc
      simp [accepted, Machine.writeStatus, hacc] }

theorem Inv.csrWrite (offset : Nat) (v : Word) : Inv (csrWrite s offset v) := by
  unfold Machine.csrWrite
  split
  · exact hs.writeCtrl v
  · exact hs.writeStatus v
  · exact { hs with }
  · exact hs.accept v
  · exact hs

theorem Inv.writeLimb {a : Nat} (v : Word) (hlo : Config.omBase ≤ a) (hhi : a + limbBytes ≤ slotAddress s.nSlots) :
    Inv { s with om := Memory.writeLimb s.om a v } :=
  { hs with
    canonical := Memory.wf_writeLimb a v hs.canonical
    inWindow := Memory.InWindow.writeLimb hs.inWindow v hlo hhi }

/-- The host's lists may change, as long as what is held stalls. -/
theorem Inv.withQueues {moves : List Agent} {events held : List HostEvent}
    (hheld : ∀ e ∈ held, stalls s e = true) :
    Inv { s with sched := moves, host := events, stalled := held } :=
  { hs with held := fun e he => (stalls_of_params rfl e).trans (hheld e he) }

theorem Inv.performsNext {e : HostEvent} (h : PerformsNext s e t) : Inv t := by
  cases h with
  | held rest idle stalled => exact hs.withQueues fun e he => hs.held e (stalled ▸ List.mem_cons_of_mem _ he)
  | issued rest idle none host => exact hs.withQueues hs.held
  | passing rest moves busy turn host free => exact hs.withQueues hs.held

theorem Inv.runsNext (h : RunsNext s t) : Inv t ∧ t.busy = true := by
  cases h with
  | unscheduled busy sched => exact ⟨hs, busy⟩
  | chosen moves busy sched => exact ⟨hs.withQueues hs.held, busy⟩
  | hostIdle moves busy sched none => exact ⟨hs.withQueues hs.held, busy⟩

theorem Inv.performRead {addr : HostAddr} {width : Nat} (h : performRead s addr width = .next t) : Inv t := by
  unfold Machine.performRead at h
  split at h
  · split at h
    · cases h; exact hs.answer _
    · cases h; exact hs.answer _
    · split at h
      · cases h; exact hs.answer _
      · cases h
  · cases h; exact hs.answer _

theorem Inv.performWrite {addr : HostAddr} {width : Nat} {v : Word} (h : performWrite s addr width v = .next t) :
    Inv t := by
  unfold Machine.performWrite at h
  split at h
  · next hlegal =>
    split at h
    · cases h; exact (hs.csrWrite _ v).answer _
    · cases h; exact hs.answer _
    · next hregion =>
      cases h
      obtain ⟨rfl, hlo, hhi⟩ := region_om hregion
      simp only [legalAccess, Bool.and_eq_true, decide_eq_true_eq] at hlegal
      exact (hs.writeLimb v hlo (limb_inside_window hlegal.2 hhi)).answer _
  · cases h; exact hs.answer _

theorem Inv.perform {e : HostEvent} (h : perform s e = .next t) : Inv t := by
  cases e with
  | read addr width => exact hs.performRead h
  | write addr width v => exact hs.performWrite h
  | hardReset => cases h; exact hs.hardReset

theorem Inv.idleMove (hidle : s.busy = false) (h : idleMove s = .next t) : Inv t := by
  obtain ⟨e, u, hnext, hmove⟩ | ⟨-, -, hmove⟩ := idleMove_cases hidle
  · exact (hs.performsNext hnext).perform (hmove ▸ h)
  · rw [hmove] at h
    cases h
    exact hs

theorem Inv.hostWhileBusy {e : HostEvent} (h : hostWhileBusy s e = .next t) : Inv t := by
  unfold Machine.hostWhileBusy at h
  split at h
  · next hstalls =>
    cases h
    exact hs.withQueues fun x hx => (List.mem_append.mp hx).elim (hs.held x) fun hx =>
      List.mem_singleton.mp hx ▸ hstalls
  · exact hs.perform h

/-- A completion with an error: FLAG and RESULT keep the 0 of acceptance (R176). -/
theorem Inv.failWith (hbusy : s.busy = true) (opc : BitVec 8) {e : CmdError} (he : e.code ≠ .none) :
    Inv (s.failWith opc e) := by
  obtain ⟨hflag, hresult, -, -⟩ := hs.accepted_fields hbusy
  exact { hs with
    running := nofun
    idleLatch := fun _ => rfl
    errorExcludesResult := fun _ => ⟨hflag, hresult⟩
    noErrorNoInfo := fun h => absurd h he }

/-- A completion with success: ERRINFO keeps the 0 of acceptance, and the writes fit in operand memory. -/
theorem Inv.succeed (hbusy : s.busy = true) {e : Effect} {base : Nat} {ws : List SlotWord}
    (hwrites : e.writes = place base ws) (hfit : base + ws.length ≤ s.nSlots) : Inv (s.succeed e) := by
  obtain ⟨-, -, -, hinfo⟩ := hs.accepted_fields hbusy
  have hwindow : (Memory.commit s.om e.writes).InWindow s.nSlots := by
    rw [hwrites]
    exact Memory.InWindow.commit_place hs.inWindow hfit
  exact { hs with
    canonical := Memory.wf_commit e.writes hs.canonical
    inWindow := hwindow
    running := nofun
    idleLatch := fun _ => rfl
    errorExcludesResult := fun h => absurd rfl h
    noErrorNoInfo := fun _ => hinfo }

theorem Inv.exec (hbusy : s.busy = true) {i : Instr} (h : exec i s = .next t) : Inv t := by
  obtain ⟨e, ⟨⟨ws, hwrites, hlen⟩, -, -⟩, rfl⟩ | ⟨e, he, rfl⟩ := exec_next_cases h
  · have hdest := dest_inside_of_extentsOk (extentsOk_of_exec h rfl)
    exact hs.succeed hbusy hwrites (by omega)
  · exact hs.failWith hbusy _ he

theorem Inv.rejectWord (hbusy : s.busy = true) (e : DecodeError) : Inv (s.rejectWord e) := by
  cases e with
  | illegalOpcode => exact hs.failWith hbusy _ ErrCode.noConfusion
  | reservedField f => exact hs.failWith hbusy _ ErrCode.noConfusion

theorem Inv.step (h : step s = .next t) : Inv t := by
  unfold Machine.step at h
  obtain ⟨hidle, hmove⟩ | ⟨u, hruns, hmove⟩ | ⟨e, rest, moves, -, -, -, hmove⟩ := nextMove_cases s <;>
    simp only [hmove] at h
  · exact hs.idleMove hidle h
  · obtain ⟨hu, hbusy⟩ := hs.runsNext hruns
    split at h
    · exact hu.exec hbusy h
    · cases h
      exact hu.rejectWord hbusy _
  · exact (hs.withQueues hs.held).hostWhileBusy h

end KeepsInv

end Sys2Proof.Machine

namespace Sys2Proof.Proofs

open Sys2Proof.Machine

/-- Settles O14: a step is a move of the idle block, a host event beside a running command, or the end of the command, and
each keeps the invariant (`Inv.step`). -/
theorem stepKeepsInvariant : Obligations.StepKeepsInvariant := fun _ _ hs h => hs.step h

end Sys2Proof.Proofs
end

section
/-! PROOFS. Operand memory behind the host port: limbs (O57), which accesses are held (O58), bus errors and reserved
addresses (O60). -/

namespace Sys2Proof.Machine

/-! ### The limbs of a slot -/

theorem ofBytes_take (n : Nat) (bs : List Byte) : ofBytes (bs.take n) = ofBytes bs % 256 ^ n := by
  induction n generalizing bs with
  | zero => simp [ofBytes, Nat.mod_one]
  | succ n ih =>
    cases bs with
    | nil => simp [ofBytes]
    | cons b bs =>
      have hb : b.toNat < 256 := b.isLt
      rw [List.take_succ_cons, ofBytes, ofBytes, ih, pow_succ', Nat.mod_mul, Nat.add_mul_mod_self_left,
        Nat.mod_eq_of_lt hb, Nat.add_mul_div_left _ _ (by decide), Nat.div_eq_of_lt hb, Nat.zero_add]

theorem ofBytes_drop (k : Nat) (bs : List Byte) : ofBytes (bs.drop k) = ofBytes bs / 256 ^ k := by
  induction k generalizing bs with
  | zero => simp
  | succ k ih =>
    cases bs with
    | nil => simp [ofBytes]
    | cons b bs =>
      have hb : b.toNat < 256 := b.isLt
      rw [List.drop_succ_cons, ih, ofBytes, pow_succ', ← Nat.div_div_eq_div_mul, Nat.add_mul_div_left _ _ (by decide),
        Nat.div_eq_of_lt hb, Nat.zero_add]

/-- A run of bytes that can be read holds each of its parts. -/
theorem Memory.readBytes_part {m : Memory} {a k n total : Nat} {bs : List Byte}
    (h : Memory.readBytes m a total = some bs) (hfit : k + n ≤ total) :
    Memory.readBytes m (a + k) n = some ((bs.drop k).take n) := by
  induction total generalizing a k n bs with
  | zero =>
    obtain ⟨rfl, rfl⟩ : k = 0 ∧ n = 0 := by omega
    rfl
  | succ total ih =>
    unfold Memory.readBytes at h
    split at h
    · next b rest hb hrest =>
      cases h
      cases k with
      | succ k => simpa [Nat.add_assoc, Nat.add_comm 1] using ih (k := k) hrest (by omega)
      | zero =>
        cases n with
        | zero => rfl
        | succ n =>
          have htail := ih (k := 0) (n := n) hrest (by omega)
          rw [Nat.add_zero, List.drop_zero] at htail
          simp [Memory.readBytes, hb, htail]
    · cases h

/-- Limb l of a slot is its bits 64·l+63 to 64·l (R44). -/
theorem Memory.readLimb_of_readSlot {m : Memory} {n l : Nat} {w : SlotWord} (hl : l < 6)
    (h : Memory.readSlot m n = some w) :
    Memory.readLimb m (slotAddress n + limbBytes * l) = some (w.extractLsb' (64 * l) 64) := by
  obtain ⟨bs, hbs, rfl⟩ := Option.map_eq_some_iff.mp h
  have hpart := Memory.readBytes_part (k := limbBytes * l) (n := limbBytes) hbs (by simp only [limbBytes, slotBytes]; omega)
  have hshift : (256 : Nat) ^ (limbBytes * l) = 2 ^ (64 * l) := by rw [pow_mul, pow_mul]; rfl
  have hlimb : (256 : Nat) ^ limbBytes = 2 ^ 64 := rfl
  rw [Memory.readLimb, hpart, Option.map_some, ofBytes_take, ofBytes_drop, hshift, hlimb]
  congr 1
  refine BitVec.eq_of_getLsbD_eq fun i hi => ?_
  have hbound : 64 * l + i < 384 := by omega
  simp only [BitVec.getLsbD_ofNat, BitVec.getLsbD_extractLsb', Nat.testBit_mod_two_pow, Nat.testBit_div_two_pow, hi,
    hbound, decide_true, Bool.true_and, Nat.add_comm i]

theorem Memory.readLimb_writeLimb_same (m : Memory) (a : Nat) (v : Word) :
    Memory.readLimb (Memory.writeLimb m a v) a = some v := by
  have h := Memory.readBytes_writeBytes_same m a (bytesOf limbBytes v.toNat)
  rw [bytesOf_length] at h
  have hv : v.toNat % 256 ^ limbBytes = v.toNat := Nat.mod_eq_of_lt v.isLt
  rw [Memory.readLimb, Memory.writeLimb, h, Option.map_some, ofBytes_bytesOf, hv, BitVec.ofNat_toNat, BitVec.setWidth_eq]

theorem Memory.readLimb_writeLimb_other (m : Memory) {a b : Nat} (v : Word)
    (h : b + limbBytes ≤ a ∨ a + limbBytes ≤ b) :
    Memory.readLimb (Memory.writeLimb m a v) b = Memory.readLimb m b := by
  rw [Memory.readLimb, Memory.writeLimb, Memory.readBytes_writeBytes_other _ _ _ _ _ (by rwa [bytesOf_length]),
    Memory.readLimb]

/-! ### The address map -/

theorem region_window {s : State} {addr : HostAddr} (hlo : Config.omBase ≤ addr.toNat)
    (hhi : addr.toNat < slotAddress s.nSlots) : region s addr = .om addr.toNat := by
  have hcsr : ¬ addr.toNat < 0x1000 := fun h => absurd (hlo.trans_lt h) (by decide)
  exact (if_neg hcsr).trans (if_pos ⟨hlo, hhi⟩)

theorem region_reserved {s : State} {addr : HostAddr} (hcsr : 0x1000 ≤ addr.toNat)
    (hom : addr.toNat < Config.omBase ∨ slotAddress s.nSlots ≤ addr.toNat) : region s addr = .reserved :=
  (if_neg (by omega)).trans (if_neg (by omega))

theorem PerformsNext.nSlots_eq {s t : State} {e : HostEvent} (h : PerformsNext s e t) : t.nSlots = s.nSlots := by
  obtain ⟨moves, events, held, rfl⟩ := h.exists_eq
  rfl

theorem PerformsNext.om_eq {s t : State} {e : HostEvent} (h : PerformsNext s e t) : t.om = s.om := by
  obtain ⟨moves, events, held, rfl⟩ := h.exists_eq
  rfl

theorem legalAccess_malformed {addr : HostAddr} {width : Nat} (h : width ≠ 8 ∨ addr.toNat % 8 ≠ 0) :
    legalAccess addr width = false := by
  rw [legalAccess, Bool.and_eq_false_iff, decide_eq_false_iff_not, decide_eq_false_iff_not]
  exact h

/-- What an address is, and where it lies (R42). -/
theorem region_cases (s : State) (addr : HostAddr) :
    (region s addr = .csr addr.toNat ∧ addr.toNat < 0x1000) ∨
    (region s addr = .om addr.toNat ∧ Config.omBase ≤ addr.toNat ∧ addr.toNat < slotAddress s.nSlots) ∨
    (region s addr = .reserved ∧ 0x1000 ≤ addr.toNat ∧
      (addr.toNat < Config.omBase ∨ slotAddress s.nSlots ≤ addr.toNat)) := by
  by_cases hcsr : addr.toNat < 0x1000
  · exact .inl ⟨region_csr s hcsr, hcsr⟩
  · by_cases hom : Config.omBase ≤ addr.toNat ∧ addr.toNat < slotAddress s.nSlots
    · exact .inr (.inl ⟨region_window hom.1 hom.2, hom⟩)
    · have hout : addr.toNat < Config.omBase ∨ slotAddress s.nSlots ≤ addr.toNat := by omega
      exact .inr (.inr ⟨region_reserved (by omega) hout, by omega, hout⟩)

/-! ### Accesses to a limb -/

/-- Where limb l of slot n begins (R44). -/
def limbAddress (n l : Nat) : Nat := slotAddress n + limbBytes * l

theorem limbAddress_eq (n l : Nat) : 0x100000 + 8 * (6 * n + l) = limbAddress n l := by
  simp only [limbAddress, slotAddress, Config.omBase, slotBytes, limbBytes]
  omega

theorem limbAddress_aligned (n l : Nat) : limbAddress n l % 8 = 0 := by
  rw [← limbAddress_eq]
  omega

theorem limbAddress_inside {n l k : Nat} (hn : n < k) (hl : l < 6) :
    Config.omBase ≤ limbAddress n l ∧ limbAddress n l < slotAddress k := by
  simp only [limbAddress, slotAddress, slotBytes, limbBytes]
  omega

theorem slotOfAddress_limbAddress (n : Nat) {l : Nat} (hl : l < 6) : slotOfAddress (limbAddress n l) = n := by
  simp only [slotOfAddress, limbAddress, slotAddress, slotBytes, limbBytes]
  omega

theorem limbAddress_apart {n l n' l' : Nat} (hl : l < 6) (hl' : l' < 6) (hne : (n', l') ≠ (n, l)) :
    limbAddress n' l' + limbBytes ≤ limbAddress n l ∨ limbAddress n l + limbBytes ≤ limbAddress n' l' := by
  rw [Ne, Prod.mk.injEq] at hne
  simp only [limbAddress, slotAddress, slotBytes, limbBytes]
  omega

section Limb

variable {s t : State} {n l : Nat} {addr : HostAddr} (hn : n < s.nSlots) (hl : l < 6)
  (haddr : addr.toNat = limbAddress n l)
include hn hl haddr

theorem region_limb : region s addr = .om (limbAddress n l) := by
  obtain ⟨hlo, hhi⟩ := limbAddress_inside hn hl
  rw [← haddr] at hlo hhi ⊢
  exact region_window hlo hhi

theorem step_limb_read (h : PerformsNext s (.read addr 8) t) {v : Word}
    (hv : Memory.readLimb s.om (limbAddress n l) = some v) : step s = .next (t.answer (.data v)) := by
  have halign := haddr ▸ limbAddress_aligned n l
  simp [step_of_performsNext h, perform, performRead, legalAccess_aligned halign,
    region_limb (h.nSlots_eq ▸ hn) hl haddr, h.om_eq, hv]

theorem step_limb_read_unwritten (h : PerformsNext s (.read addr 8) t)
    (hnone : Memory.readLimb s.om (limbAddress n l) = none) : step s = .fault (.unwrittenSlot n) := by
  have halign := haddr ▸ limbAddress_aligned n l
  simp [step_of_performsNext h, perform, performRead, legalAccess_aligned halign,
    region_limb (h.nSlots_eq ▸ hn) hl haddr, h.om_eq, hnone, slotOfAddress_limbAddress n hl]

theorem step_limb_write {v : Word} (h : PerformsNext s (.write addr 8 v) t) :
    step s = .next (State.answer { t with om := Memory.writeLimb s.om (limbAddress n l) v } .written) := by
  have halign := haddr ▸ limbAddress_aligned n l
  simp [step_of_performsNext h, perform, performWrite, legalAccess_aligned halign,
    region_limb (h.nSlots_eq ▸ hn) hl haddr, h.om_eq]

end Limb

/-! ### Held accesses -/

theorem step_of_stalls {s : State} {e : HostEvent} {rest : List HostEvent} {moves : List Agent} (hbusy : s.busy = true)
    (hturn : s.sched = .host :: moves) (hhost : s.host = e :: rest) (hstalls : stalls s e = true) :
    step s = .next { s with sched := moves, host := rest, stalled := s.stalled ++ [e] } := by
  have hmove : nextMove s = .host (hostWhileBusy { s with sched := moves, host := rest } e) := by
    simp [nextMove, hbusy, hturn, hhost]
  have hheld : stalls { s with sched := moves, host := rest } e = true := (stalls_of_params rfl e).trans hstalls
  simp [step, hmove, hostWhileBusy, hheld]

/-- An aligned read stalls in the OM window; an aligned write also at COUNT and CMD (R48). -/
theorem stalls_aligned (s : State) {addr : HostAddr} (v : Word) (halign : addr.toNat % 8 = 0) :
    stalls s (.read addr 8) = (decide (Config.omBase ≤ addr.toNat) && decide (addr.toNat < slotAddress s.nSlots)) ∧
    stalls s (.write addr 8 v) = (decide (Config.omBase ≤ addr.toNat) && decide (addr.toNat < slotAddress s.nSlots) ||
      decide (addr = 0x030) || decide (addr = 0x040)) := by
  have hcount : addr = 0x030 ↔ addr.toNat = 0x030 := BitVec.toNat_inj.symm
  have hcmd : addr = 0x040 ↔ addr.toNat = 0x040 := BitVec.toNat_inj.symm
  simp only [stalls, legalAccess_aligned halign, Bool.true_and, hcount, hcmd]
  obtain ⟨hregion, hcsr⟩ | ⟨hregion, hlo, hhi⟩ | ⟨hregion, hlo, hout⟩ := region_cases s addr
  · have hbelow : ¬ Config.omBase ≤ addr.toNat := fun h => absurd (h.trans_lt hcsr) (by decide)
    simp only [hregion, hbelow, decide_false, Bool.false_and, Bool.false_or, true_and]
    rfl
  · simp [hregion, hlo, hhi]
  · have hwindow : ¬ (Config.omBase ≤ addr.toNat ∧ addr.toNat < slotAddress s.nSlots) := by omega
    have hne : addr.toNat ≠ 0x030 ∧ addr.toNat ≠ 0x040 := by omega
    simp [hregion, ← Bool.decide_and, hwindow, hne]

end Sys2Proof.Machine

namespace Sys2Proof.Proofs

open Sys2Proof.Machine

/-- Settles O57: the port reads and writes the limb at its address, and two limbs have no byte in common
(`limbAddress_apart`). -/
theorem operandMemoryLimbs : Obligations.OperandMemoryLimbs := by
  intro s t n l addr _ hn hl haddr
  simp only [limbAddress_eq] at haddr ⊢
  refine ⟨fun h => ⟨fun w hw => ?_, fun v hv => ?_, fun hnone => ?_⟩, fun v h => ?_⟩
  · exact step_limb_read hn hl haddr h (Memory.readLimb_of_readSlot hl hw)
  · exact step_limb_read hn hl haddr h hv
  · exact step_limb_read_unwritten hn hl haddr h hnone
  · exact ⟨_, step_limb_write hn hl haddr h, Memory.readLimb_writeLimb_same _ _ _, fun n' l' hl' hne =>
      Memory.readLimb_writeLimb_other _ _ (limbAddress_apart hl hl' hne)⟩

/-- Settles O58: the held access joins the queue (`step_of_stalls`), the window is where `region` says (`stalls_aligned`),
and an idle block performs the head of the queue. -/
theorem accessesStallWhileBusy : Obligations.AccessesStallWhileBusy :=
  ⟨fun _ _ _ _ => step_of_stalls, fun s _ v _ halign => stalls_aligned s v halign,
    fun s e rest hidle hheld => step_of_performsNext (.held s e rest hidle hheld)⟩

/-- Settles O60: a malformed access is not legal and so answers before the address is looked at; the map puts the other
addresses in no region. -/
theorem busErrorsAndReservedAddresses : Obligations.BusErrorsAndReservedAddresses := by
  refine ⟨fun s t addr width v hbad => ?_, fun s t addr v halign hmap => ?_⟩
  · have hlegal := legalAccess_malformed hbad
    refine ⟨fun h => ?_, fun h => ?_, ?_, ?_⟩
    · simp [step_of_performsNext h, perform, performRead, hlegal, State.answer]
    · simp [step_of_performsNext h, perform, performWrite, hlegal, State.answer]
    · simp [stalls, hlegal]
    · simp [stalls, hlegal]
  · have hregion {e : HostEvent} (h : PerformsNext s e t) : region t addr = .reserved :=
      
      region_reserved (by omega) (hmap.imp And.right (h.nSlots_eq.symm ▸ id))
    refine ⟨fun h => ?_, fun h => ?_⟩
    · simp [step_of_performsNext h, perform, performRead, legalAccess_aligned halign, hregion h, State.answer]
    · simp [step_of_performsNext h, perform, performWrite, legalAccess_aligned halign, hregion h, State.answer]

end Sys2Proof.Proofs
end

section
/-! PROOFS. The decoder (R72, R73): what it makes of a word with the opcode of a given command (`decode_cases`), and
which words have none (`opcode_cases`). The round trips (O1, O2), the masks (O4), the rejected words (O5) and the
sample words (O3) follow. -/

namespace Sys2Proof

/-! ### The fields of a word -/

@[simp] theorem opcOf_commandWord (o x : BitVec 8) (d a b : SlotAddr) : opcOf (commandWord o x d a b) = o :=
  BitVec.extractLsb'_append_eq_right

@[simp] theorem auxOf_commandWord (o x : BitVec 8) (d a b : SlotAddr) : auxOf (commandWord o x d a b) = x :=
  (BitVec.extractLsb'_append_eq_of_le (by decide)).trans BitVec.extractLsb'_append_eq_right

@[simp] theorem dOf_commandWord (o x : BitVec 8) (d a b : SlotAddr) : dOf (commandWord o x d a b) = d :=
  (BitVec.extractLsb'_append_eq_of_le (by decide)).trans <|
    (BitVec.extractLsb'_append_eq_of_le (by decide)).trans BitVec.extractLsb'_append_eq_right

@[simp] theorem aOf_commandWord (o x : BitVec 8) (d a b : SlotAddr) : aOf (commandWord o x d a b) = a :=
  (BitVec.extractLsb'_append_eq_of_le (by decide)).trans <|
    (BitVec.extractLsb'_append_eq_of_le (by decide)).trans <|
      (BitVec.extractLsb'_append_eq_of_le (by decide)).trans BitVec.extractLsb'_append_eq_right

@[simp] theorem bOf_commandWord (o x : BitVec 8) (d a b : SlotAddr) : bOf (commandWord o x d a b) = b :=
  (BitVec.extractLsb'_append_eq_of_le (by decide)).trans <|
    (BitVec.extractLsb'_append_eq_of_le (by decide)).trans <|
      (BitVec.extractLsb'_append_eq_of_le (by decide)).trans BitVec.extractLsb'_append_eq_left

/-- A word is its five fields (R65). -/
theorem commandWord_fields (w : Word) : commandWord (opcOf w) (auxOf w) (dOf w) (aOf w) (bOf w) = w := by
  have join (lo n k : Nat) : w.extractLsb' (lo + k) n ++ w.extractLsb' lo k = w.extractLsb' lo (n + k) :=
    BitVec.extractLsb'_append_extractLsb'_eq_extractLsb' rfl
  calc
    commandWord (opcOf w) (auxOf w) (dOf w) (aOf w) (bOf w)
      = w.extractLsb' 32 32 ++ dOf w ++ auxOf w ++ opcOf w := congrArg (· ++ dOf w ++ auxOf w ++ opcOf w) (join 32 16 16)
    _ = w.extractLsb' 16 48 ++ auxOf w ++ opcOf w := congrArg (· ++ auxOf w ++ opcOf w) (join 16 32 16)
    _ = w.extractLsb' 8 56 ++ opcOf w := congrArg (· ++ opcOf w) (join 8 48 8)
    _ = w.extractLsb' 0 64 := join 0 56 8
    _ = w := BitVec.extractLsb'_eq_self

/-! ### What the decoder makes of a word -/

/-- The form of a word, read with the field uses of `f` (R72). -/
def Form.readFrom (f : Form) (w : Word) : Form :=
  ⟨f.opc, f.aux.map fun _ => auxOf w, f.d.map fun _ => dOf w, f.a.map fun _ => aOf w, f.b.map fun _ => bOf w⟩

/-- AUX is 0 where the opcode does not use it, and in the opcode's range where it does (R73). -/
def Form.auxLegal (f : Form) (x : BitVec 8) : Bool :=
  if f.aux.isNone then x == 0
  else if f.opc = 0x02 then decide (x.toNat < 10)
  else if f.opc = 0x80 then decide (2 ≤ x.toNat) && decide (x.toNat ≤ 8)
  else true

/-- The reserved-field checks of an opcode, in the order AUX, D, A, B (R66, R175 check 2). -/
def Form.fieldChecks (f : Form) (w : Word) : List (Operand × Bool) :=
  [(.none, f.auxLegal (auxOf w)), (.d, f.d.isSome || dOf w == 0), (.a, f.a.isSome || aOf w == 0),
    (.b, f.b.isSome || bOf w == 0)]

theorem wellFormed_eq_auxLegal (i : Instr) : WellFormed i = (form i).auxLegal ((form i).aux.getD 0) := by
  cases i <;> rfl

/-- Everything the reserved-field check can answer. -/
theorem checkReserved_cases (l : List (Operand × Bool)) :
    (checkReserved l = .ok () ∧ ∀ x ∈ l, x.2 = true) ∨
    ∃ f, (f, false) ∈ l ∧ checkReserved l = .error (.reservedField f) := by
  induction l with
  | nil => exact .inl ⟨rfl, nofun⟩
  | cons x l ih =>
    obtain ⟨f, zero⟩ := x
    cases zero with
    | false => exact .inr ⟨f, List.mem_cons_self, rfl⟩
    | true => simpa [checkReserved] using ih

/-- `r` is the decoding of a word with the opcode of `i`: the command with the word's fields, once the reserved fields
are checked. -/
def DecodesAs (w : Word) (i : Instr) (r : Except DecodeError Instr) : Prop :=
  ∃ j, form j = (form i).readFrom w ∧ (form j = form i → j = i) ∧
    r = (checkReserved ((form i).fieldChecks w) >>= fun _ => pure j)

section Shapes

variable {w : Word} {o : BitVec 8}

theorem decodesAs_shapeNone {i : Instr} (hform : form i = ⟨o, none, none, none, none⟩) :
    DecodesAs w i (shapeNone w i) :=
  ⟨i, by rw [hform]; rfl, fun _ => rfl, by rw [hform]; rfl⟩

theorem decodesAs_shapeA {mk : SlotAddr → Instr} (hform : ∀ a, form (mk a) = ⟨o, none, none, some a, none⟩)
    (a : SlotAddr) : DecodesAs w (mk a) (shapeA w mk) :=
  ⟨mk (aOf w), by rw [hform, hform]; rfl, by rw [hform, hform]; simp +contextual, by rw [hform]; rfl⟩

theorem decodesAs_shapeAB {mk : SlotAddr → SlotAddr → Instr}
    (hform : ∀ a b, form (mk a b) = ⟨o, none, none, some a, some b⟩) (a b : SlotAddr) :
    DecodesAs w (mk a b) (shapeAB w mk) :=
  ⟨mk (aOf w) (bOf w), by rw [hform, hform]; rfl, by rw [hform, hform]; simp +contextual, by rw [hform]; rfl⟩

theorem decodesAs_shapeDA {mk : SlotAddr → SlotAddr → Instr}
    (hform : ∀ d a, form (mk d a) = ⟨o, none, some d, some a, none⟩) (d a : SlotAddr) :
    DecodesAs w (mk d a) (shapeDA w mk) :=
  ⟨mk (dOf w) (aOf w), by rw [hform, hform]; rfl, by rw [hform, hform]; simp +contextual, by rw [hform]; rfl⟩

theorem decodesAs_shapeDAB {mk : SlotAddr → SlotAddr → SlotAddr → Instr}
    (hform : ∀ d a b, form (mk d a b) = ⟨o, none, some d, some a, some b⟩) (d a b : SlotAddr) :
    DecodesAs w (mk d a b) (shapeDAB w mk) :=
  ⟨mk (dOf w) (aOf w) (bOf w), by rw [hform, hform]; rfl, by rw [hform, hform]; simp +contextual, by rw [hform]; rfl⟩

theorem decodesAs_shapeDAAux {mk : SlotAddr → SlotAddr → BitVec 8 → Instr}
    (hform : ∀ d a k, form (mk d a k) = ⟨o, some k, some d, some a, none⟩) (d a : SlotAddr) (k : BitVec 8) {legal : Bool}
    (hlegal : legal = (form (mk d a k)).auxLegal (auxOf w)) : DecodesAs w (mk d a k) (shapeDAAux w legal mk) :=
  ⟨mk (dOf w) (aOf w) (auxOf w), by rw [hform, hform]; rfl, by rw [hform, hform]; simp +contextual,
    by rw [hlegal, hform]; rfl⟩

theorem decodesAs_shapeDAux {mk : SlotAddr → BitVec 8 → Instr}
    (hform : ∀ d k, form (mk d k) = ⟨o, some k, some d, none, none⟩) (d : SlotAddr) (k : BitVec 8) {legal : Bool}
    (hlegal : legal = (form (mk d k)).auxLegal (auxOf w)) : DecodesAs w (mk d k) (shapeDAux w legal mk) :=
  ⟨mk (dOf w) (auxOf w), by rw [hform, hform]; rfl, by rw [hform, hform]; simp +contextual, by rw [hlegal, hform]; rfl⟩

end Shapes

/-- The decoder on the words of one opcode (R72, R73). -/
theorem decodesAs_decode {w : Word} {i : Instr} (h : opcOf w = opcode i) : DecodesAs w i (decode w) := by
  unfold decode
  rw [h]
  cases i with
  | nop => exact decodesAs_shapeNone rfl
  | copy d a k | fp2Frob d a k | fp6Frob d a k | fp12Frob d a k | wnaf d a k =>
    exact decodesAs_shapeDAAux (fun _ _ _ => rfl) d a k rfl
  | ldc d k => exact decodesAs_shapeDAux (fun _ _ => rfl) d k rfl
  | fpAdd d a b | fpSub d a b | fpMul d a b | fp2Add d a b | fp2Sub d a b | fp2Mul d a b | fp6Add d a b | fp6Sub d a b
  | fp6Mul d a b | fp6Mulby01 d a b | fp6Mulby1 d a b | fp12Add d a b | fp12Sub d a b | fp12Mul d a b
  | fp12Mulby014 d a b | fp12Mulby034 d a b | g1Add d a b | g1Addm d a b | g1Sub d a b | g1Mul d a b | g1Msm d a b
  | g1Mulct d a b | g2Add d a b | g2Addm d a b | g2Sub d a b | g2Mul d a b | g2Msm d a b | g2Mulct d a b
  | miller d a b | pair d a b =>
    exact decodesAs_shapeDAB (fun _ _ _ => rfl) d a b
  | fpEq a b | fp2Eq a b | fp6Eq a b | fp12Eq a b | g1Eq a b | g2Eq a b | pcheck a b =>
    exact decodesAs_shapeAB (fun _ _ => rfl) a b
  | fpIsqnr a | fpIszero a | g1Iszero a | g1Oncurve a | g1Insub a | g1Check a | g1Isaffine a | g2Iszero a
  | g2Oncurve a | g2Insub a | g2Check a | g2Isaffine a =>
    exact decodesAs_shapeA (fun _ => rfl) a
  | fpDbl d a | fpNeg d a | fpSqr d a | fpTomont d a | fpFrommont d a | fpInv d a | fpSqrt d a | fp2Dbl d a
  | fp2Neg d a | fp2Sqr d a | fp2Inv d a | fp2Conj d a | fp6Dbl d a | fp6Neg d a | fp6Sqr d a | fp6Inv d a
  | fp12Dbl d a | fp12Neg d a | fp12Sqr d a | fp12Inv d a | fp12Conj d a | fp12Csqr d a | g1Dbl d a | g1Neg d a
  | g1Affine d a | g1Affb d a | g2Dbl d a | g2Neg d a | g2Affine d a | g2Affb d a | finalexp d a | cexp d a
  | fromwnaf d a =>
    exact decodesAs_shapeDA (fun _ _ => rfl) d a

/-- Everything the decoder can answer on the words of one opcode. -/
theorem decode_cases {w : Word} {i : Instr} (h : opcOf w = opcode i) :
    ((∀ x ∈ (form i).fieldChecks w, x.2 = true) ∧
      ∃ j, form j = (form i).readFrom w ∧ (form j = form i → j = i) ∧ decode w = .ok j) ∨
    ∃ f, (f, false) ∈ (form i).fieldChecks w ∧ decode w = .error (.reservedField f) := by
  obtain ⟨j, hform, hunique, hdecode⟩ := decodesAs_decode h
  obtain ⟨hok, hall⟩ | ⟨f, hf, herr⟩ := checkReserved_cases ((form i).fieldChecks w)
  · exact .inl ⟨hall, j, hform, hunique, by rw [hdecode, hok]; rfl⟩
  · exact .inr ⟨f, hf, by rw [hdecode, herr]; rfl⟩

/-- AUX is checked before the other fields (R175 check 2). -/
theorem decode_of_aux_illegal {w : Word} {i : Instr} (h : opcOf w = opcode i)
    (haux : (form i).auxLegal (auxOf w) = false) : decode w = .error (.reservedField .none) := by
  obtain ⟨j, -, -, hdecode⟩ := decodesAs_decode h
  rw [hdecode, Form.fieldChecks, haux]
  rfl

/-! ### The assigned opcodes -/

/-- The OPC values that R73 leaves unassigned. -/
def Unassigned (o : BitVec 8) : Prop :=
  let n := o.toNat
  (0x03 ≤ n ∧ n ≤ 0x0F) ∨ (0x1D ≤ n ∧ n ≤ 0x1F) ∨ (0x2A ≤ n ∧ n ≤ 0x2F) ∨ (0x3B ≤ n ∧ n ≤ 0x3F) ∨
    (0x4D ≤ n ∧ n ≤ 0x4F) ∨ (0x75 ≤ n ∧ n ≤ 0x7F) ∨ (0x82 ≤ n ∧ n ≤ 0xFF)

theorem decode_of_unassigned {w : Word} (h : Unassigned (opcOf w)) : decode w = .error .illegalOpcode := by
  unfold Unassigned at h
  unfold decode
  split
  case h_90 => rfl
  all_goals omega

/-- The opcode of the command with OPC `o` and no operands; width 2 makes the WNAF word legal. -/
def sampleOpcode (o : BitVec 8) : Option (BitVec 8) :=
  (decode (commandWord o (if o = 0x80 then 2 else 0) 0 0 0)).toOption.map opcode

theorem sampleOpcode_of_assigned : ∀ o : BitVec 8, ¬ Unassigned o → sampleOpcode o = some o := by
  unfold Unassigned
  decide +kernel

/-- Every OPC is a command's or unassigned. -/
theorem opcode_cases (o : BitVec 8) : (∃ i, opcode i = o) ∨ Unassigned o := by
  by_cases h : Unassigned o
  · exact .inr h
  · obtain ⟨i, -, hi⟩ := Option.map_eq_some_iff.mp (sampleOpcode_of_assigned o h)
    exact .inl ⟨i, hi⟩

theorem decode_illegalOpcode_iff (w : Word) : decode w = .error .illegalOpcode ↔ Unassigned (opcOf w) := by
  refine ⟨fun h => ?_, decode_of_unassigned⟩
  obtain ⟨i, hi⟩ | hun := opcode_cases (opcOf w)
  · obtain ⟨-, j, -, -, hok⟩ | ⟨f, -, herr⟩ := decode_cases hi.symm
    · cases hok.symm.trans h
    · cases herr.symm.trans h
  · exact hun

/-! ### Decoding and encoding -/

theorem opcOf_encode (i : Instr) : opcOf (encode i) = opcode i := opcOf_commandWord _ _ _ _ _

theorem readFrom_encode (i : Instr) : (form i).readFrom (encode i) = form i := by
  simp only [encode, Form.readFrom, auxOf_commandWord, dOf_commandWord, aOf_commandWord, bOf_commandWord]
  generalize form i = f
  obtain ⟨o, aux, d, a, b⟩ := f
  congr
  · cases aux <;> rfl
  · cases d <;> rfl
  · cases a <;> rfl
  · cases b <;> rfl

/-- The word of a well-formed command passes the checks of its opcode. -/
theorem fieldChecks_encode {i : Instr} (h : WellFormed i = true) : ∀ x ∈ (form i).fieldChecks (encode i), x.2 = true := by
  rw [wellFormed_eq_auxLegal] at h
  have hzero {n : Nat} (x : Option (BitVec n)) : (x.isSome || x.getD 0 == 0) = true := by cases x <;> simp
  simp only [Form.fieldChecks, encode, auxOf_commandWord, dOf_commandWord, aOf_commandWord, bOf_commandWord, h, hzero,
    List.forall_mem_cons, true_and]
  exact nofun

/-- A form read from a word whose reserved fields pass their checks gives the word back. -/
theorem encode_of_readFrom {f : Form} {w : Word} {j : Instr} (hform : form j = f.readFrom w) (hopc : f.opc = opcOf w)
    (hall : ∀ x ∈ f.fieldChecks w, x.2 = true) : WellFormed j = true ∧ encode j = w := by
  obtain ⟨haux, hd, ha, hb⟩ : f.auxLegal (auxOf w) = true ∧ (f.d.isSome || dOf w == 0) = true ∧
    (f.a.isSome || aOf w == 0) = true ∧ (f.b.isSome || bOf w == 0) = true := by simpa [Form.fieldChecks] using hall
  have hfield {n : Nat} {x : Option (BitVec n)} {y : BitVec n} (h : (x.isSome || y == 0) = true) :
      (x.map fun _ => y).getD 0 = y := by
    cases x <;> simp_all
  have hauxField : (f.aux.map fun _ => auxOf w).getD 0 = auxOf w := by
    cases hx : f.aux <;> simp_all [Form.auxLegal]
  constructor
  · rw [wellFormed_eq_auxLegal, hform, Form.readFrom, hauxField, ← haux]
    simp [Form.auxLegal]
  · simp only [encode, hform, Form.readFrom, hauxField, hfield hd, hfield ha, hfield hb, hopc]
    exact commandWord_fields w

theorem decode_encode {i : Instr} (h : WellFormed i = true) : decode (encode i) = .ok i := by
  obtain ⟨-, j, hform, hunique, hok⟩ | ⟨f, hf, -⟩ := decode_cases (opcOf_encode i)
  · rw [hok, hunique (hform.trans (readFrom_encode i))]
  · cases fieldChecks_encode h _ hf

/-- What a command that was decoded says about its word. -/
theorem encode_of_decode {w : Word} {i : Instr} (h : decode w = .ok i) : WellFormed i = true ∧ encode i = w := by
  obtain ⟨k, hk⟩ | hun := opcode_cases (opcOf w)
  · obtain ⟨hall, j, hform, -, hok⟩ | ⟨f, -, herr⟩ := decode_cases hk.symm
    · cases hok.symm.trans h
      exact encode_of_readFrom hform hk hall
    · cases herr.symm.trans h
  · cases (decode_of_unassigned hun).symm.trans h

/-! ### Masks and matches -/

theorem maskOf_eq_or (i : Instr) : maskOf i =
    0xFF ||| (if (form i).aux = none then 0xFF00 else 0) ||| (if (form i).d = none then 0xFFFF0000 else 0) |||
      (if (form i).a = none then 0xFFFF00000000 else 0) ||| (if (form i).b = none then 0xFFFF000000000000 else 0) := by
  have hnone {α : Type} [DecidableEq α] (x : Option α) (c : Word) :
      (if x = none then c else 0) = if x.isSome then 0 else c := by cases x <;> simp
  have hmask : ∀ x d a b : Bool, commandWord 0xFF (if x then 0 else 0xFF) (if d then 0 else 0xFFFF)
      (if a then 0 else 0xFFFF) (if b then 0 else 0xFFFF) =
      0xFF ||| (if x then 0 else 0xFF00) ||| (if d then 0 else 0xFFFF0000) ||| (if a then 0 else 0xFFFF00000000) |||
        (if b then 0 else 0xFFFF000000000000) := by decide
  rw [hnone, hnone, hnone, hnone]
  exact hmask _ _ _ _

theorem and_maskOf_of_decode {w : Word} {i : Instr} (h : decode w = .ok i) : w &&& maskOf i = matchOf i := by
  obtain ⟨-, rfl⟩ := encode_of_decode h
  exact Laws.MaskMatch.of_form i

/-- Commands with the same opcode have the same mask and match: they depend on the field uses only. -/
theorem maskOf_of_readFrom {i j : Instr} {w : Word} (h : form j = (form i).readFrom w) :
    maskOf j = maskOf i ∧ matchOf j = matchOf i := by
  simp [maskOf, matchOf, opcode, h, Form.readFrom]

/-- A word that agrees with a match under its mask has its opcode. -/
theorem opcOf_of_and_maskOf {w : Word} {i : Instr} (h : w &&& maskOf i = matchOf i) : opcOf w = opcode i := by
  have hmask : opcOf (maskOf i) = 0xFF := opcOf_commandWord _ _ _ _ _
  have hmatch : opcOf (matchOf i) = opcode i := by
    rw [matchOf, ← Laws.MaskMatch.commandWord_opc, opcOf_commandWord]
  calc opcOf w = opcOf w &&& opcOf (maskOf i) := by rw [hmask, Laws.MaskMatch.and_all8]
    _ = opcOf (w &&& maskOf i) := BitVec.extractLsb'_and.symm
    _ = opcode i := by rw [h, hmatch]

theorem decode_of_mask_mismatch {w : Word} {i : Instr} (h : opcOf w = opcode i) (hne : w &&& maskOf i ≠ matchOf i) :
    ∃ f, decode w = .error (.reservedField f) := by
  obtain ⟨-, j, hform, -, hok⟩ | ⟨f, -, herr⟩ := decode_cases h
  · obtain ⟨hmask, hmatch⟩ := maskOf_of_readFrom hform
    exact absurd (hmask ▸ hmatch ▸ and_maskOf_of_decode hok) hne
  · exact ⟨f, herr⟩

end Sys2Proof

namespace Sys2Proof.Proofs

open Sys2Proof.Machine

/-- Settles O1: the word of a command has its opcode and passes its field checks, and the decoder reads back its fields. -/
theorem decodeEncodeRoundTrip : Obligations.DecodeEncodeRoundTrip := fun _ => decode_encode

/-- Settles O2: a field the opcode uses is read from the word, and every other field of a decodable word is 0. -/
theorem decodedWordIsTheEncoding : Obligations.DecodedWordIsTheEncoding := fun _ _ => encode_of_decode

/-- Settles O4: mask and match are words of the form's field uses, and a decodable word is its command's encoding (O2). -/
theorem maskAndMatchSeparateOpcodes : Obligations.MaskAndMatchSeparateOpcodes :=
  ⟨fun i => ⟨rfl, maskOf_eq_or i⟩, fun _ _ => and_maskOf_of_decode, fun _ _ => decode_of_mask_mismatch,
    fun _ _ _ hi hj => (opcOf_of_and_maskOf hi).symm.trans (opcOf_of_and_maskOf hj),
    fun d a b => ⟨(maskOf_eq_or _).trans (by simp [form]), rfl⟩, by decide, by decide⟩

/-- Settles O5: `decode_illegalOpcode_iff`, AUX checked before every other field, and the step of a rejected word. -/
theorem unassignedAndReservedWordsAreRejected : Obligations.UnassignedAndReservedWordsAreRejected := by
  refine ⟨decode_illegalOpcode_iff, ?_, ?_, ?_, ?_, ?_⟩
  · intro w hopc haux
    refine decode_of_aux_illegal (i := .ldc 0 0) hopc (decide_eq_false ?_)
    omega
  · intro w hopc haux
    refine decode_of_aux_illegal (i := .wnaf 0 0 0) hopc ?_
    show (decide (2 ≤ (auxOf w).toNat) && decide ((auxOf w).toNat ≤ 8)) = false
    rw [← Bool.decide_and]
    exact decide_eq_false (by omega)
  · intro w i hopc hnone haux
    exact decode_of_aux_illegal hopc (by simpa [Form.auxLegal, hnone] using haux)
  · rintro s t _ hruns rfl hdecode
    rw [step_of_decode_error hruns hdecode, ← (nextMove_of_runsNext hruns).2]
    rfl
  · rintro s t _ f hruns rfl hdecode
    rw [step_of_decode_error hruns hdecode, ← (nextMove_of_runsNext hruns).2]
    rfl

/-- Settles O3: each word is the encoding of its command (O1). -/
theorem sampleWordsDecode : Obligations.SampleWordsDecode :=
  ⟨decode_encode (i := .fpMul 2 0 1) rfl, decode_encode (i := .fpEq 0 1) rfl, decode_encode (i := .copy 10 0 2) rfl,
    decode_encode (i := .ldc 0 1) rfl, decode_encode (i := .nop) rfl, decode_encode (i := .fp2Frob 4 2 1) rfl,
    decode_encode (i := .wnaf 20 3 4) rfl, decode_encode (i := .g1Msm 0 10 40) rfl⟩

end Sys2Proof.Proofs
end

section
/-! PROOFS. What a command's outcome depends on: the parameters, the latched COUNT where it is a list command, and operand
memory (`exec_alike`). O13 follows, and that other commands ignore COUNT (O17). -/

namespace Sys2Proof.Machine

/-! ### Reading an operand is reading operand memory -/

/-- What a layout reads depends on operand memory alone. -/
def Layout.ReadsMemory {α : Type} (L : Layout α) : Prop := ∀ s t : State, s.om = t.om → L.read s = L.read t

theorem readSlot_of_om {s t : State} (h : s.om = t.om) : readSlot s = readSlot t := by
  funext slot
  simp only [readSlot, State.slot, h]

theorem readRaw_of_om {s t : State} (h : s.om = t.om) (n slot : Nat) : readRaw s n slot = readRaw t n slot := by
  induction n generalizing slot with
  | zero => rfl
  | succ n ih => simp only [readRaw, readSlot_of_om h, ih]

theorem readsMemory_word : layoutWord.ReadsMemory := by
  intro s t h
  funext o idx slot
  simp only [layoutWord, readWord, readSlot_of_om h]

theorem readsMemory_fp : layoutFp.ReadsMemory := by
  intro s t h
  funext o idx slot
  have hword := congrFun₃ (readsMemory_word s t h) o idx slot
  simp only [layoutWord] at hword
  simp only [layoutFp, readFp, hword]

theorem readsMemory_scalar (bound : Nat) : (layoutScalar bound).ReadsMemory := by
  intro s t h
  funext o idx slot
  simp only [layoutScalar, readScalar, readSlot_of_om h]

theorem readsMemory_raw (n : Nat) : (layoutRaw n).ReadsMemory := by
  intro s t h
  funext o idx slot
  exact readRaw_of_om h n slot

theorem readsMemory_wn : layoutWN.ReadsMemory := by
  intro s t h
  funext o idx slot
  simp only [layoutWN, readRaw_of_om h]

theorem Layout.ReadsMemory.pair {α β : Type} {L : Layout α} {M : Layout β} (hL : L.ReadsMemory) (hM : M.ReadsMemory) :
    (L.pair M).ReadsMemory := by
  intro s t h
  simp only [Layout.pair, hL s t h, hM s t h]

theorem Layout.ReadsMemory.iso {α β : Type} {L : Layout α} (hL : L.ReadsMemory) (make : α → β) (back : β → α) :
    (L.iso make back).ReadsMemory := by
  intro s t h
  simp only [Layout.iso, hL s t h]

theorem Layout.ReadsMemory.point {F : Type} {L : Layout F} (hL : L.ReadsMemory) : (layoutPoint L).ReadsMemory :=
  (hL.pair (hL.pair hL)).iso _ _

theorem Layout.ReadsMemory.list {α : Type} {L : Layout α} (hL : L.ReadsMemory) (n : Nat) :
    (layoutList n L).ReadsMemory := by
  intro s t h
  funext o _ slot
  show readListFrom L s o n 0 slot = readListFrom L t o n 0 slot
  generalize 0 = idx
  induction n generalizing idx slot with
  | zero => rfl
  | succ n ih => simp only [readListFrom, hL s t h, ih]

theorem readsMemory_fp2 : layoutFp2.ReadsMemory := (readsMemory_fp.pair readsMemory_fp).iso _ _
theorem readsMemory_sparse2 : layoutSparse2.ReadsMemory := readsMemory_fp2.pair readsMemory_fp2
theorem readsMemory_sparse3 : layoutSparse3.ReadsMemory := readsMemory_fp2.pair readsMemory_sparse2
theorem readsMemory_fp6 : layoutFp6.ReadsMemory := readsMemory_sparse3.iso _ _
theorem readsMemory_fp12 : layoutFp12.ReadsMemory := (readsMemory_fp6.pair readsMemory_fp6).iso _ _
theorem readsMemory_g1 : layoutG1.ReadsMemory := readsMemory_fp.point
theorem readsMemory_g2 : layoutG2.ReadsMemory := readsMemory_fp2.point

/-! ### Commands that end alike -/

/-- The same parameters and the same operand memory. -/
structure SameMemory (s t : State) : Prop where
  params : s.params = t.params
  om : s.om = t.om

/-- Two commands compute the same success, error or fault, and each ends its own state with it. -/
def Alike (s t : State) (x y : Host.Outcome State Fault Refusal) : Prop :=
  ∃ opc r, x = finish opc s r ∧ y = finish opc t r

section Shapes

variable {s t : State} (hst : SameMemory s t) {opc : BitVec 8} {α β γ : Type} {LA : Layout α} {LB : Layout β}
  {LD : Layout γ} {d a b : SlotAddr}
include hst

theorem SameMemory.checkExtents (os : List (Operand × SlotAddr × Nat)) : checkExtents s os = checkExtents t os := by
  have hslots : s.nSlots = t.nSlots := by simp only [State.nSlots, hst.params]
  induction os with
  | nil => rfl
  | cons x os ih =>
    obtain ⟨o, base, extent⟩ := x
    simp only [Machine.checkExtents, hslots, ih]

theorem alike_commandA (hA : LA.ReadsMemory) (body : α → Except Stop Effect) :
    Alike s t (commandA opc LA a s body) (commandA opc LA a t body) :=
  ⟨opc, _, rfl, by rw [commandA, hst.checkExtents, hA s t hst.om]⟩

theorem alike_commandAB (hA : LA.ReadsMemory) (hB : LB.ReadsMemory) (body : α → β → Except Stop Effect) :
    Alike s t (commandAB opc LA LB a b s body) (commandAB opc LA LB a b t body) :=
  ⟨opc, _, rfl, by rw [commandAB, hst.checkExtents, hA s t hst.om, hB s t hst.om]⟩

theorem alike_commandDA (hA : LA.ReadsMemory) (n : Nat) (body : α → Except Stop Effect) :
    Alike s t (commandDA opc n LA d a s body) (commandDA opc n LA d a t body) :=
  ⟨opc, _, rfl, by rw [commandDA, hst.checkExtents, hA s t hst.om]⟩

theorem alike_commandDAB (hA : LA.ReadsMemory) (hB : LB.ReadsMemory) (n : Nat) (body : α → β → Except Stop Effect) :
    Alike s t (commandDAB opc n LA LB d a b s body) (commandDAB opc n LA LB d a b t body) :=
  ⟨opc, _, rfl, by rw [commandDAB, hst.checkExtents, hA s t hst.om, hB s t hst.om]⟩

theorem alike_listCommand (hcount : s.countLatch = t.countLatch) {x y : Host.Outcome State Fault Refusal}
    (h : Alike s t x y) : Alike s t (listCommand opc s x) (listCommand opc t y) := by
  have hmax : s.maxCount = t.maxCount := by simp only [State.maxCount, hst.params]
  have hshape : checkShape s = checkShape t := by simp only [checkShape, hcount, hmax]
  rw [listCommand, listCommand, hshape]
  cases checkShape t with
  | ok _ => exact h
  | error e => exact ⟨opc, .error e, rfl, rfl⟩

theorem alike_unaryList (hcount : s.countLatch = t.countLatch) (hA : LA.ReadsMemory) (f : List α → List γ) :
    Alike s t
      (listCommand opc s (unary opc (layoutList s.countLatch.toNat LD) (layoutList s.countLatch.toNat LA) f d a s))
      (listCommand opc t (unary opc (layoutList t.countLatch.toNat LD) (layoutList t.countLatch.toNat LA) f d a t)) := by
  rw [hcount]
  exact alike_listCommand hst hcount (alike_commandDA hst (hA.list _) _ _)

theorem alike_binaryList (hcount : s.countLatch = t.countLatch) (hA : LA.ReadsMemory) (hB : LB.ReadsMemory)
    (f : List α → List β → γ) :
    Alike s t
      (listCommand opc s
        (binary opc LD (layoutList s.countLatch.toNat LA) (layoutList s.countLatch.toNat LB) f d a b s))
      (listCommand opc t
        (binary opc LD (layoutList t.countLatch.toNat LA) (layoutList t.countLatch.toNat LB) f d a b t)) := by
  rw [hcount]
  exact alike_listCommand hst hcount (alike_commandDAB hst (hA.list _) (hB.list _) _ _)

theorem alike_test2List (hcount : s.countLatch = t.countLatch) (hA : LA.ReadsMemory) (hB : LB.ReadsMemory)
    (g : List α → List β → Bool) :
    Alike s t
      (listCommand opc s (test2 opc (layoutList s.countLatch.toNat LA) (layoutList s.countLatch.toNat LB) g a b s))
      (listCommand opc t (test2 opc (layoutList t.countLatch.toNat LA) (layoutList t.countLatch.toNat LB) g a b t)) := by
  rw [hcount]
  exact alike_listCommand hst hcount (alike_commandAB hst (hA.list _) (hB.list _) _)

theorem alike_ldc (k : BitVec 8) : Alike s t (execLdc d k s) (execLdc d k t) := by
  refine ⟨0x02, _, rfl, ?_⟩
  cases hrom : romEntry k.toNat <;> simp only [execLdc, hrom, hst.checkExtents]

theorem alike_wnaf (w : BitVec 8) : Alike s t (execWnaf d a w s) (execWnaf d a w t) := by
  unfold execWnaf
  split
  · exact ⟨_, _, rfl, rfl⟩
  · exact alike_commandDA hst (readsMemory_scalar _) _ _

end Shapes

/-- What a command computes depends on the parameters and operand memory, and on the latched COUNT where it is a list
command. -/
theorem exec_alike {s t : State} (hst : SameMemory s t) (i : Instr)
    (hcount : isListCommand i = true → s.countLatch = t.countLatch) : Alike s t (exec i s) (exec i t) := by
  cases i with
  | nop => exact ⟨0x00, .ok {}, rfl, rfl⟩
  | copy d a k => exact alike_commandDA hst (readsMemory_raw _) _ _
  | ldc d k => exact alike_ldc hst k
  | wnaf d a w => exact alike_wnaf hst w
  | fromwnaf d a => exact alike_commandDA hst readsMemory_wn _ _
  | fpAdd d a b | fpSub d a b | fpMul d a b => exact alike_commandDAB hst readsMemory_word readsMemory_word _ _
  | fpDbl d a | fpNeg d a | fpSqr d a | fpTomont d a | fpFrommont d a | fpInv d a =>
    exact alike_commandDA hst readsMemory_word _ _
  | fpSqrt d a => exact alike_commandDA hst readsMemory_fp _ _
  | fpIsqnr a => exact alike_commandA hst readsMemory_fp _
  | fpEq a b => exact alike_commandAB hst readsMemory_fp readsMemory_fp _
  | fpIszero a => exact alike_commandA hst readsMemory_word _
  | fp2Add d a b | fp2Sub d a b | fp2Mul d a b => exact alike_commandDAB hst readsMemory_fp2 readsMemory_fp2 _ _
  | fp2Dbl d a | fp2Neg d a | fp2Sqr d a | fp2Inv d a | fp2Conj d a | fp2Frob d a k =>
    exact alike_commandDA hst readsMemory_fp2 _ _
  | fp2Eq a b => exact alike_commandAB hst readsMemory_fp2 readsMemory_fp2 _
  | fp6Add d a b | fp6Sub d a b | fp6Mul d a b => exact alike_commandDAB hst readsMemory_fp6 readsMemory_fp6 _ _
  | fp6Dbl d a | fp6Neg d a | fp6Sqr d a | fp6Inv d a | fp6Frob d a k =>
    exact alike_commandDA hst readsMemory_fp6 _ _
  | fp6Mulby01 d a b => exact alike_commandDAB hst readsMemory_fp6 readsMemory_sparse2 _ _
  | fp6Mulby1 d a b => exact alike_commandDAB hst readsMemory_fp6 readsMemory_fp2 _ _
  | fp6Eq a b => exact alike_commandAB hst readsMemory_fp6 readsMemory_fp6 _
  | fp12Add d a b | fp12Sub d a b | fp12Mul d a b => exact alike_commandDAB hst readsMemory_fp12 readsMemory_fp12 _ _
  | fp12Dbl d a | fp12Neg d a | fp12Sqr d a | fp12Inv d a | fp12Conj d a | fp12Frob d a k | fp12Csqr d a
  | finalexp d a | cexp d a =>
    exact alike_commandDA hst readsMemory_fp12 _ _
  | fp12Mulby014 d a b | fp12Mulby034 d a b => exact alike_commandDAB hst readsMemory_fp12 readsMemory_sparse3 _ _
  | fp12Eq a b => exact alike_commandAB hst readsMemory_fp12 readsMemory_fp12 _
  | g1Add d a b | g1Addm d a b | g1Sub d a b => exact alike_commandDAB hst readsMemory_g1 readsMemory_g1 _ _
  | g1Dbl d a | g1Neg d a | g1Affine d a => exact alike_commandDA hst readsMemory_g1 _ _
  | g1Mul d a b | g1Mulct d a b => exact alike_commandDAB hst readsMemory_g1 (readsMemory_scalar _) _ _
  | g1Eq a b => exact alike_commandAB hst readsMemory_g1 readsMemory_g1 _
  | g1Iszero a | g1Oncurve a | g1Insub a | g1Check a | g1Isaffine a => exact alike_commandA hst readsMemory_g1 _
  | g1Affb d a => exact alike_unaryList hst (hcount rfl) readsMemory_g1 _
  | g1Msm d a b => exact alike_binaryList hst (hcount rfl) readsMemory_g1 (readsMemory_scalar _) _
  | g2Add d a b | g2Addm d a b | g2Sub d a b => exact alike_commandDAB hst readsMemory_g2 readsMemory_g2 _ _
  | g2Dbl d a | g2Neg d a | g2Affine d a => exact alike_commandDA hst readsMemory_g2 _ _
  | g2Mul d a b | g2Mulct d a b => exact alike_commandDAB hst readsMemory_g2 (readsMemory_scalar _) _ _
  | g2Eq a b => exact alike_commandAB hst readsMemory_g2 readsMemory_g2 _
  | g2Iszero a | g2Oncurve a | g2Insub a | g2Check a | g2Isaffine a => exact alike_commandA hst readsMemory_g2 _
  | g2Affb d a => exact alike_unaryList hst (hcount rfl) readsMemory_g2 _
  | g2Msm d a b => exact alike_binaryList hst (hcount rfl) readsMemory_g2 (readsMemory_scalar _) _
  | miller d a b | pair d a b => exact alike_binaryList hst (hcount rfl) readsMemory_g1 readsMemory_g2 _
  | pcheck a b => exact alike_test2List hst (hcount rfl) readsMemory_g1 readsMemory_g2 _

/-- Accepted states agree in the registers that an outcome shows (R69 step 1). -/
theorem Alike.sameOutcome {s t : State} (hs : accepted s = true) (ht : accepted t = true) (hom : s.om = t.om)
    {x y : Host.Outcome State Fault Refusal} (h : Alike s t x y) : sameOutcome x y := by
  simp only [accepted, Bool.and_eq_true, Bool.not_eq_true', decide_eq_true_eq] at hs ht
  obtain ⟨⟨⟨⟨-, hflag⟩, hresult⟩, hcode⟩, hinfo⟩ := hs
  obtain ⟨⟨⟨⟨-, hflag'⟩, hresult'⟩, hcode'⟩, hinfo'⟩ := ht
  obtain ⟨opc, r, rfl, rfl⟩ := h
  match r with
  | .ok e => exact ⟨by simp [hom], rfl, rfl, rfl, hinfo.trans hinfo'.symm, rfl, rfl⟩
  | .error (.raise e) => exact ⟨hom, hflag.trans hflag'.symm, hresult.trans hresult'.symm, rfl, rfl, rfl, rfl⟩
  | .error (.fault f) => exact rfl

/-- The end of a command drops the latched COUNT. -/
theorem Alike.eq_of_withCount {s : State} {n : BitVec 32} {x y : Host.Outcome State Fault Refusal}
    (h : Alike { s with countLatch := n } s x y) : x = y := by
  obtain ⟨opc, r, rfl, rfl⟩ := h
  match r with
  | .ok e => rfl
  | .error (.raise e) => rfl
  | .error (.fault f) => rfl

theorem exec_withCount {i : Instr} (h : isListCommand i = false) (s : State) (n : BitVec 32) :
    exec i { s with countLatch := n } = exec i s := by
  have hsame : SameMemory { s with countLatch := n } s := ⟨rfl, rfl⟩
  exact (exec_alike hsame i fun hlist => absurd (h.symm.trans hlist) Bool.false_ne_true).eq_of_withCount

end Sys2Proof.Machine

namespace Sys2Proof.Proofs

open Sys2Proof.Machine

/-- Settles O13: the checks and reads of a command see the parameters, the latched COUNT and operand memory only
(`exec_alike`), and accepted states agree in the registers a completion keeps. -/
theorem resultsDependOnlyOnOperands : Obligations.ResultsDependOnlyOnOperands :=
  fun i _ _ hs ht ⟨hparams, hcount, hom⟩ => (exec_alike ⟨hparams, hom⟩ i fun _ => hcount).sameOutcome hs ht hom

end Sys2Proof.Proofs
end

section
/-! PROOFS. Acceptance (O8), the count check of the list commands with their empty results (O17), and the extent check
(O18). -/

namespace Sys2Proof.Machine

/-! ### The pairing of nothing -/

@[simp] theorem Fp12.mul_one_one : Fp12.one.mul Fp12.one = Fp12.one := by decide +kernel
@[simp] theorem Fp12.sqr_one : Fp12.one.sqr = Fp12.one := Fp12.mul_one_one
@[simp] theorem Fp12.csqr_one : Fp12.one.csqr = Fp12.one := by decide +kernel
@[simp] theorem Fp12.conj_one : Fp12.one.conj = Fp12.one := by decide +kernel
@[simp] theorem Fp12.inv_one : Fp12.one.inv = Fp12.one := by decide +kernel

@[simp] theorem Fp12.frob_one (k : Nat) : Fp12.one.frob k = Fp12.one := by
  have h : ∀ j < 12, Fp12.one.frob j = Fp12.one := by decide +kernel
  have := h (k % 12) (Nat.mod_lt _ (by decide))
  rwa [Fp12.frob, Nat.mod_mod] at this

@[simp] theorem cexpLoop_one (n : Nat) (started : Bool) : cexpLoop Fp12.one n Fp12.one started = Fp12.one := by
  induction n generalizing started with
  | zero => rfl
  | succ n ih => simp [cexpLoop, ih]

@[simp] theorem cexp_one : cexp Fp12.one = Fp12.one := by simp [cexp]

theorem finalExp_one : finalExp Fp12.one = Fp12.one := by simp [finalExp, easyPart, hardPart]

@[simp] theorem millerLoop_nil_one (n j : Nat) : millerLoop [] n j Fp12.one = Fp12.one := by
  induction n generalizing j with
  | zero => rfl
  | succ n ih => simp [millerLoop, foldLines, ih]

theorem miller_nil : miller [] [] = Fp12.one := by simp [miller, prepareAll]

theorem pairing_nil : pairing [] [] = Fp12.one := by rw [pairing, miller_nil, finalExp_one]

/-! ### The sum of nothing -/

namespace Curve

variable {F : Type} (C : Curve F) [DecidableEq F]

@[simp] theorem addF_identity_left (P : Point F) : C.addF C.identity P = P := if_pos rfl

@[simp] theorem dblF_identity : C.dblF C.identity = C.identity := if_pos rfl

@[simp] theorem dblTimes_identity (n : Nat) : C.dblTimes n C.identity = C.identity := by
  induction n with
  | zero => rfl
  | succ n ih => simpa [dblTimes] using ih

/-- The sweep over empty buckets. -/
@[simp] theorem msmWindowSum_nil (c w : Nat) : C.msmWindowSum c w [] = C.identity := by
  simp only [msmWindowSum, msmBuckets, List.foldl_nil, List.reverse_replicate]
  generalize 2 ^ c - 1 = n
  induction n with
  | zero => rfl
  | succ n ih => simpa [List.replicate_succ, msmSweepStep] using ih

@[simp] theorem msmCombine_nil_identity (c w : Nat) : C.msmCombine c [] w C.identity = C.identity := by
  induction w with
  | zero => rfl
  | succ w ih => simpa [msmCombine] using ih

theorem msm_nil : C.msm [] = C.identity := C.msmCombine_nil_identity _ _

end Curve

/-! ### The count check -/

theorem listCommand_of_count_gt {s : State} (h : s.maxCount < s.countLatch.toNat) (opc : BitVec 8)
    (run : Host.Outcome State Fault Refusal) :
    listCommand opc s run = .next (s.failWith opc ⟨.shape, .none, 0, s.countLatch⟩) := by
  obtain ⟨hle, -⟩ | ⟨-, hshape⟩ := listCommand_cases opc s run
  · omega
  · exact hshape

theorem listCommand_of_count_zero {s : State} (h : s.countLatch = 0) (opc : BitVec 8)
    (run : Host.Outcome State Fault Refusal) : listCommand opc s run = run := by
  obtain ⟨-, hrun⟩ | ⟨hlt, -⟩ := listCommand_cases opc s run
  · exact hrun
  · simp [h] at hlt

theorem failsWith_shape {i : Instr} {s : State} (hlist : isListCommand i = true)
    (hcount : s.maxCount < s.countLatch.toNat) : failsWith i s ⟨.shape, .none, 0, s.countLatch⟩ := by
  cases i with
  | g1Affb d a | g2Affb d a | g1Msm d a b | g2Msm d a b | miller d a b | pair d a b | pcheck a b =>
    exact listCommand_of_count_gt hcount _ _
  | _ => cases hlist

/-! ### The extent check -/

theorem checkExtents_of_extentsOk {i : Instr} {s : State} (h : extentsOk s i = true) :
    checkExtents s (operandsOf s i) = .ok () := by
  refine checkExtents_ok fun x hx => ?_
  obtain ⟨u, hu, rfl⟩ := List.mem_map.mp hx
  exact List.all_eq_true.mp h u hu

/-- The first operand that does not fit is the one reported (R68). -/
theorem checkExtents_append_cons {s : State} {pre post : List (Operand × SlotAddr × Nat)} {o : Operand} {base : SlotAddr}
    {extent : Nat} (hpre : ∀ x ∈ pre, x.2.1.toNat + x.2.2 ≤ s.nSlots) (h : s.nSlots < base.toNat + extent) :
    checkExtents s (pre ++ (o, base, extent) :: post) = .error (.raise ⟨.addressRange, o, base, 0⟩) := by
  induction pre with
  | nil => exact if_pos h
  | cons x pre ih =>
    obtain ⟨hx, hrest⟩ := List.forall_mem_cons.mp hpre
    exact (if_neg hx.not_gt).trans (ih hrest)

/-- The operand that the extent check reports does not fit. -/
theorem exists_of_checkExtents_error {s : State} {os : List (Operand × SlotAddr × Nat)} {o : Operand} {base : SlotAddr}
    (h : checkExtents s os = .error (.raise ⟨.addressRange, o, base, 0⟩)) :
    ∃ extent, (o, base, extent) ∈ os ∧ s.nSlots < base.toNat + extent := by
  induction os with
  | nil => cases h
  | cons x os ih =>
    obtain ⟨o', base', extent'⟩ := x
    unfold checkExtents at h
    split at h
    · next hlt =>
      cases h
      exact ⟨extent', List.mem_cons_self, hlt⟩
    · obtain ⟨extent, hmem, hlt⟩ := ih h
      exact ⟨extent, List.mem_cons_of_mem _ hmem, hlt⟩

theorem failsWith_addressRange {i : Instr} {s : State} {o : Operand} {base : SlotAddr} (hwf : WellFormed i = true)
    (hshape : shapeOk s i = true)
    (h : checkExtents s (operandsOf s i) = .error (.raise ⟨.addressRange, o, base, 0⟩)) :
    failsWith i s ⟨.addressRange, o, base, 0⟩ := by
  obtain ⟨k, hexec⟩ | ⟨hbad, -⟩ := exec_extents_cases i s
  · rw [failsWith, hexec, h]
    rfl
  · simp [hwf, hshape] at hbad

/-- A command has at most one operand of each field (R72). -/
theorem uses_operand_nodup (n : Nat) (i : Instr) : ((uses n i).map Use.operand).Nodup := by
  cases i <;> simp [uses]

theorem romEntry_ne_nil {k : Nat} (h : k < 10) : (romEntry k).getD [] ≠ [] := by
  interval_cases k <;> nofun

/-- Only an empty list has extent 0. -/
theorem empty_list_of_extent_zero {i : Instr} {n : Nat} (hwf : WellFormed i = true) :
    ∀ u ∈ uses n i, u.extent = 0 → isListCommand i = true ∧ n = 0 := by
  cases i with
  | ldc d k =>
    have hrom := romEntry_ne_nil (of_decide_eq_true hwf)
    simp [uses, Use.extent, hrom]
  | g1Affb d a | g2Affb d a | g1Msm d a b | g2Msm d a b | miller d a b | pair d a b | pcheck a b =>
    simp [uses, Use.extent, isListCommand, opcode, form]
  | _ => simp [uses, Use.extent]

/-! ### Empty lists -/

section Empty

variable {s : State} {α β γ : Type} {LA : Layout α} {LB : Layout β} {LD : Layout γ} {opc : BitVec 8} {d a b : SlotAddr}
  (hcount : s.countLatch = 0)
include hcount

theorem read_layoutList_of_count_zero (o : Operand) (idx slot : Nat) :
    (layoutList s.countLatch.toNat LA).read s o idx slot = .ok [] := by
  rw [hcount]
  rfl

theorem unary_empty {f : List α → List γ} {v : List γ} (hv : f [] = v)
    (hfit : checkExtents s [(.d, d, (layoutList s.countLatch.toNat LD).extent),
      (.a, a, (layoutList s.countLatch.toNat LA).extent)] = .ok ()) :
    listCommand opc s (unary opc (layoutList s.countLatch.toNat LD) (layoutList s.countLatch.toNat LA) f d a s) =
      .next (s.succeed (writing (layoutList s.countLatch.toNat LD) d v)) := by
  rw [listCommand_of_count_zero hcount, unary, commandDA, hfit, read_layoutList_of_count_zero hcount, ← hv]
  rfl

theorem binary_empty {f : List α → List β → γ} {v : γ} (hv : f [] [] = v)
    (hfit : checkExtents s [(.d, d, LD.extent), (.a, a, (layoutList s.countLatch.toNat LA).extent),
      (.b, b, (layoutList s.countLatch.toNat LB).extent)] = .ok ()) :
    listCommand opc s (binary opc LD (layoutList s.countLatch.toNat LA) (layoutList s.countLatch.toNat LB) f d a b s) =
      .next (s.succeed (writing LD d v)) := by
  rw [listCommand_of_count_zero hcount, binary, commandDAB, hfit, read_layoutList_of_count_zero hcount,
    read_layoutList_of_count_zero hcount, ← hv]
  rfl

theorem test2_empty {g : List α → List β → Bool} {flag : Bool} (hg : g [] [] = flag)
    (hfit : checkExtents s [(.a, a, (layoutList s.countLatch.toNat LA).extent),
      (.b, b, (layoutList s.countLatch.toNat LB).extent)] = .ok ()) :
    listCommand opc s (test2 opc (layoutList s.countLatch.toNat LA) (layoutList s.countLatch.toNat LB) g a b s) =
      .next (s.succeed (flagging flag)) := by
  rw [listCommand_of_count_zero hcount, test2, commandAB, hfit, read_layoutList_of_count_zero hcount,
    read_layoutList_of_count_zero hcount, ← hg]
  rfl

end Empty

theorem exists_completes_of_empty_list {i : Instr} {s : State} (hlist : isListCommand i = true)
    (hcount : s.countLatch = 0) (hfit : extentsOk s i = true) : ∃ e, completes i s e := by
  have hcheck := checkExtents_of_extentsOk hfit
  cases i with
  | g1Affb d a | g2Affb d a => exact ⟨_, unary_empty hcount rfl hcheck⟩
  | g1Msm d a b | g2Msm d a b | miller d a b | pair d a b => exact ⟨_, binary_empty hcount rfl hcheck⟩
  | pcheck a b => exact ⟨_, test2_empty hcount rfl hcheck⟩
  | _ => cases hlist

theorem operand_ne_of_extent_zero {i : Instr} {s t : State} {u : Use} (hwf : WellFormed i = true) (hu : u ∈ usesOf s i)
    (hzero : u.extent = 0) (hbase : u.base.toNat ≤ s.nSlots) (h : exec i s = .next t)
    (hcode : t.errCode = .addressRange) : t.errInfo.opnd ≠ u.operand := by
  obtain ⟨hlist, hn⟩ := empty_list_of_extent_zero hwf u hu hzero
  have hcount : s.countLatch = 0 := BitVec.eq_of_toNat_eq hn
  obtain ⟨hok, hfit⟩ | ⟨o, base, herr⟩ := checkExtents_cases s (operandsOf s i)
  · have hext : extentsOk s i = true :=
      List.all_eq_true.mpr fun v hv => decide_eq_true (hfit _ (List.mem_map_of_mem hv))
    obtain ⟨e, he⟩ := exists_completes_of_empty_list hlist hcount hext
    cases he.symm.trans h
    cases hcode
  · have hshape : shapeOk s i = true := by simp [shapeOk, hcount]
    cases (failsWith_addressRange hwf hshape herr).symm.trans h
    rintro rfl
    obtain ⟨extent, hmem, hlt⟩ := exists_of_checkExtents_error herr
    obtain ⟨v, hv, hfields⟩ := List.mem_map.mp hmem
    simp only [Prod.mk.injEq] at hfields
    obtain ⟨hoperand, rfl, rfl⟩ := hfields
    obtain rfl := List.inj_on_of_nodup_map (uses_operand_nodup _ _) hv hu hoperand
    omega

end Sys2Proof.Machine

namespace Sys2Proof.Proofs

open Sys2Proof.Machine

/-- Settles O8: the write is performed by `State.accept` (R69 step 1), whatever brought it to the port, and irq falls with
DONE. -/
theorem commandWriteIsAccepted : Obligations.CommandWriteIsAccepted := by
  intro s t w _ h
  refine ⟨_, step_csr_write h (by decide) (by decide), rfl, ?_⟩
  exact Bool.and_false _

/-- Settles O17: the count check comes first (`listCommand_of_count_gt`), a command of one element never looks at COUNT
(`exec_withCount`), and the sum and the pairing of nothing are the identity and one. -/
theorem listCountIsChecked : Obligations.ListCountIsChecked :=
  ⟨fun _ _ => failsWith_shape, fun _ s n h => exec_withCount h s n, fun _ _ _ _ hcount =>
    ⟨fun h => unary_empty hcount List.map_nil (checkExtents_of_extentsOk h),
      fun h => unary_empty hcount List.map_nil (checkExtents_of_extentsOk h),
      fun h => binary_empty hcount curveG1.msm_nil (checkExtents_of_extentsOk h),
      fun h => binary_empty hcount curveG2.msm_nil (checkExtents_of_extentsOk h),
      fun h => binary_empty hcount miller_nil (checkExtents_of_extentsOk h),
      fun h => binary_empty hcount pairing_nil (checkExtents_of_extentsOk h),
      fun h => test2_empty hcount (decide_eq_true pairing_nil) (checkExtents_of_extentsOk h)⟩⟩

/-- Settles O18: the extent check stops at the first operand that does not fit; an operand of extent 0 is that of an empty
list, which then fits or leaves the report to another operand. -/
theorem operandPastTheEndIsAddressRange : Obligations.OperandPastTheEndIsAddressRange := by
  refine ⟨fun i s pre post u hwf hshape huses hpre hlt => ?_, fun _ _ _ _ => operand_ne_of_extent_zero⟩
  refine failsWith_addressRange hwf hshape ?_
  rw [operandsOf, huses, List.map_append, List.map_cons]
  exact checkExtents_append_cons (List.forall_mem_map.mpr hpre) hlt

end Sys2Proof.Proofs
end

section
/-! PROOFS. The multiplier and the adder of the Fp unit on words, read in `ZMod p` (O25), and the word-serial CIOS datapath
(O26). -/

namespace Sys2Proof.Machine

/-! ### Words are read in `ZMod p` -/

/-- A word below p is known by its residue class. -/
theorem eq_of_natCast_eq {m n : Nat} (hm : m < Config.p) (hn : n < Config.p) (h : (m : ZMod Config.p) = n) : m = n :=
  ((ZMod.natCast_eq_natCast_iff _ _ _).1 h).eq_of_lt_of_lt hm hn

theorem radix_mul_radixInv_cast : (Config.radix : ZMod Config.p) * Config.radixInv = 1 := by
  rw [← Nat.cast_mul, ← ZMod.natCast_mod, radix_mul_radixInv, Nat.cast_one]

theorem rsq_cast : (Config.rsq : ZMod Config.p) = Config.radix ^ 2 := by
  rw [← Nat.cast_pow, ← ZMod.natCast_mod (Config.radix ^ 2)]
  exact congrArg Nat.cast (by decide +kernel : Config.rsq = Config.radix ^ 2 % Config.p)

@[simp] theorem mont_cast (a : Fp) : ((mont a).val : ZMod Config.p) = a.toZMod * Config.radix := by
  simp [mont, Fp.toZMod]

/-- One subtraction of p reduces a number below 2p. -/
theorem sub_once_lt {n : Nat} (h : n < 2 * Config.p) : (if n ≥ Config.p then n - Config.p else n) < Config.p := by
  split <;> omega

theorem sub_once_cast (n : Nat) :
    ((if n ≥ Config.p then n - Config.p else n : Nat) : ZMod Config.p) = n := by
  split
  · next h => rw [Nat.cast_sub h, ZMod.natCast_self, sub_zero]
  · rfl

theorem montMul_lt (x y : Nat) : montMul x y < Config.p := Nat.mod_lt _ Config.p_pos

@[simp] theorem montMul_cast (x y : Nat) : (montMul x y : ZMod Config.p) = x * y * Config.radixInv := by
  simp [montMul]

theorem addMod_lt {x y : Nat} (hx : x < Config.p) (hy : y < Config.p) : addMod x y < Config.p :=
  sub_once_lt (by omega)

@[simp] theorem addMod_cast (x y : Nat) : (addMod x y : ZMod Config.p) = x + y :=
  (sub_once_cast _).trans (Nat.cast_add x y)

theorem subMod_lt {x y : Nat} (hx : x < Config.p) (hy : y < Config.p) : subMod x y < Config.p := by
  unfold subMod
  split <;> omega

theorem subMod_int {x y : Nat} (hy : y < Config.p) :
    ((subMod x y : Nat) : Int) = if x < y then (x : Int) - y + Config.p else x - y := by
  unfold subMod
  split <;> omega

theorem subMod_cast (x : Nat) {y : Nat} (hy : y < Config.p) : (subMod x y : ZMod Config.p) = x - y := by
  rw [← Int.cast_natCast, subMod_int hy]
  split <;> simp

/-- R77: the defining property of the Montgomery product. -/
theorem montMul_mul_radix (x y : Nat) : montMul x y * 2 ^ 384 % Config.p = x * y % Config.p := by
  refine (ZMod.natCast_eq_natCast_iff' _ _ _).1 ?_
  change ((montMul x y * Config.radix : Nat) : ZMod Config.p) = _
  push_cast [montMul_cast]
  linear_combination (x * y : ZMod Config.p) * radix_mul_radixInv_cast

theorem montMul_mont (a b : Fp) : montMul (mont a).val (mont b).val = (mont (a * b)).val := by
  refine eq_of_natCast_eq (montMul_lt _ _) (mont _).isLt ?_
  simp only [montMul_cast, mont_cast, Fp.toZMod_mul]
  linear_combination (a.toZMod * b.toZMod * Config.radix) * radix_mul_radixInv_cast

theorem addMod_mont (a b : Fp) : addMod (mont a).val (mont b).val = (mont (a + b)).val := by
  refine eq_of_natCast_eq (addMod_lt (mont a).isLt (mont b).isLt) (mont _).isLt ?_
  simp only [addMod_cast, mont_cast, Fp.toZMod_add, add_mul]

theorem subMod_mont (a b : Fp) : subMod (mont a).val (mont b).val = (mont (a - b)).val := by
  refine eq_of_natCast_eq (subMod_lt (mont a).isLt (mont b).isLt) (mont _).isLt ?_
  simp only [subMod_cast _ (mont b).isLt, mont_cast, Fp.toZMod_sub, sub_mul]

/-! ### The CIOS datapath (R78) -/

/-- The number in t[6:0]: six limbs and the seventh. -/
def ciosValue (t : List Nat × Nat) : Nat := ofLimbs t.1 + limbRadix ^ 6 * t.2

theorem radix_eq_limbs : Config.radix = limbRadix ^ 6 := by decide +kernel

theorem ofLimbs_append_singleton (ls : List Nat) (l : Nat) :
    ofLimbs (ls ++ [l]) = ofLimbs ls + limbRadix ^ ls.length * l := by
  induction ls with
  | nil => simp [ofLimbs]
  | cons x ls ih =>
    rw [List.cons_append, ofLimbs, ofLimbs, ih, List.length_cons]
    ring

theorem ofLimbs_append_top {t : List Nat × Nat} (ht : t.1.length = 6) : ofLimbs (t.1 ++ [t.2]) = ciosValue t := by
  rw [ofLimbs_append_singleton, ht, ciosValue]

theorem limbsOf_length (n v : Nat) : (limbsOf n v).length = n := by
  induction n generalizing v with
  | zero => rfl
  | succ n ih => simp [limbsOf, ih]

theorem ofLimbs_limbsOf (n v : Nat) : ofLimbs (limbsOf n v) = v % limbRadix ^ n := by
  induction n generalizing v with
  | zero => simp [limbsOf, ofLimbs, Nat.mod_one]
  | succ n ih => rw [limbsOf, ofLimbs, ih, pow_succ', Nat.mod_mul]

theorem ofLimbs_pLimbs : ofLimbs Config.pLimbs = Config.p := by decide +kernel

theorem p_lt_limbs : Config.p < limbRadix ^ 6 := by decide +kernel

theorem limbsOf_of_lt {v : Nat} (h : v < Config.p) : ofLimbs (limbsOf 6 v) = v := by
  rw [ofLimbs_limbsOf, Nat.mod_eq_of_lt (h.trans p_lt_limbs)]

/-- A row of multiply-and-add loses nothing: the limbs and the carry out are the sum. -/
theorem mulAddRow_value {y c : Nat} {xs ts : List Nat} (h : xs.length = ts.length) :
    (mulAddRow y xs ts c).1.length = ts.length ∧
    ofLimbs (mulAddRow y xs ts c).1 + limbRadix ^ ts.length * (mulAddRow y xs ts c).2 =
      ofLimbs ts + ofLimbs xs * y + c := by
  induction xs generalizing ts c with
  | nil =>
    obtain rfl := List.length_eq_zero_iff.1 h.symm
    simp [mulAddRow, ofLimbs]
  | cons x xs ih =>
    match ts with
    | t :: ts =>
      obtain ⟨hlen, hval⟩ := ih (c := (t + x * y + c) / limbRadix) (Nat.succ.inj h)
      refine ⟨congrArg Nat.succ hlen, ?_⟩
      have hdiv := Nat.mod_add_div (t + x * y + c) limbRadix
      simp only [mulAddRow, ofLimbs, List.length_cons]
      linear_combination limbRadix * hval + hdiv

/-- The lowest limb that the reduction row computes is 0: NINV makes r₀ + m·p a multiple of the limb radix (R9). -/
theorem mulAddRow_pLimbs_head (r : Nat) (rs : List Nat) :
    ∃ ls c, mulAddRow (r * Config.ninv % limbRadix) Config.pLimbs (r :: rs) 0 = (0 :: ls, c) := by
  refine ⟨_, _, congrArg (fun l => (l :: _, _))
    (?_ : (r + 0xb9feffffffffaaab * (r * Config.ninv % limbRadix) + 0) % limbRadix = 0)⟩
  simp only [Config.ninv, limbRadix]
  omega

/-- The second half of a pass: the row gains a multiple of p that makes it divisible by the limb radix. -/
theorem reduceRow_value {row : List Nat} (h : row.length = 6) :
    ∃ ls c m, mulAddRow (row.headD 0 * Config.ninv % limbRadix) Config.pLimbs row 0 = (0 :: ls, c) ∧ ls.length = 5 ∧
      m < limbRadix ∧ limbRadix * ofLimbs ls + limbRadix ^ 6 * c = ofLimbs row + Config.p * m := by
  match row with
  | r :: rs =>
    obtain ⟨ls, c, hred⟩ := mulAddRow_pLimbs_head r rs
    obtain ⟨hlen, hval⟩ := mulAddRow_value (y := r * Config.ninv % limbRadix) (c := 0) (xs := Config.pLimbs) h.symm
    rw [hred, h] at hlen hval
    rw [ofLimbs_pLimbs, ofLimbs] at hval
    exact ⟨ls, c, _, hred, Nat.succ.inj hlen, Nat.mod_lt _ (by decide), by linear_combination hval⟩

/-- One pass of CIOS: the number in t gains x·bi and a multiple of p, and is divided by the limb radix exactly. -/
theorem ciosPass_value {x : List Nat} {t : List Nat × Nat} (hx : x.length = 6) (ht : t.1.length = 6) (bi : Nat) :
    (ciosPass x t bi).1.length = 6 ∧ ∃ m < limbRadix,
      limbRadix * ciosValue (ciosPass x t bi) = ciosValue t + ofLimbs x * bi + Config.p * m := by
  obtain ⟨hlen, hval₁⟩ := mulAddRow_value (y := bi) (c := 0) (hx.trans ht.symm)
  match hrow : mulAddRow bi x t.1 0 with
  | (row, c₁) =>
    rw [hrow, ht] at hlen hval₁
    obtain ⟨ls, c₂, m, hred, hls, hm, hval₂⟩ := reduceRow_value hlen
    have hpass : ciosPass x t bi = (ls ++ [((t.2 + c₁) % limbRadix + c₂) % limbRadix],
        (t.2 + c₁) / limbRadix + ((t.2 + c₁) % limbRadix + c₂) / limbRadix) := by
      simp only [ciosPass, hrow, hred, List.tail_cons]
    have hdiv₁ := Nat.mod_add_div (t.2 + c₁) limbRadix
    have hdiv₂ := Nat.mod_add_div ((t.2 + c₁) % limbRadix + c₂) limbRadix
    rw [hpass, ciosValue, ciosValue, ofLimbs_append_singleton, hls]
    exact ⟨by simp [hls], m, hm,
      by linear_combination hval₂ + hval₁ + limbRadix ^ 6 * hdiv₂ + limbRadix ^ 6 * hdiv₁⟩

/-- The passes over the limbs `bs`. -/
theorem ciosPasses_value {x : List Nat} (hx : x.length = 6) (bs : List Nat) {t : List Nat × Nat} (ht : t.1.length = 6) :
    (bs.foldl (ciosPass x) t).1.length = 6 ∧ ∃ m < limbRadix ^ bs.length,
      limbRadix ^ bs.length * ciosValue (bs.foldl (ciosPass x) t) = ciosValue t + ofLimbs x * ofLimbs bs + Config.p * m := by
  induction bs generalizing t with
  | nil => exact ⟨ht, 0, by simp, by simp [ofLimbs]⟩
  | cons b bs ih =>
    obtain ⟨hlen, m₀, hm₀, hval₀⟩ := ciosPass_value hx ht b
    obtain ⟨hlen', m, hm, hval⟩ := ih hlen
    refine ⟨hlen', m₀ + limbRadix * m, ?_, ?_⟩
    · calc m₀ + limbRadix * m < limbRadix * (m + 1) := by rw [mul_add, mul_one]; omega
        _ ≤ limbRadix ^ (b :: bs).length := by
          rw [List.length_cons, pow_succ']
          exact Nat.mul_le_mul_left _ hm
    · rw [List.length_cons, List.foldl_cons, ofLimbs]
      linear_combination limbRadix * hval + hval₀

/-- What the six passes leave: a number below 2p that is x·y·R^(−1) modulo p. -/
theorem cios_eq_sub_once {x y : Nat} (hx : x < Config.p) (hy : y < Config.p) :
    ∃ n m, cios x y = (if n ≥ Config.p then n - Config.p else n) ∧ n < 2 * Config.p ∧
      limbRadix ^ 6 * n = x * y + Config.p * m := by
  obtain ⟨hlen, m, hm, hval⟩ := ciosPasses_value (limbsOf_length 6 x) (limbsOf 6 y) (t := (List.replicate 6 0, 0)) rfl
  have hzero : ciosValue (List.replicate 6 0, 0) = 0 := rfl
  rw [limbsOf_length] at hm hval
  rw [limbsOf_of_lt hx, limbsOf_of_lt hy, hzero, zero_add] at hval
  refine ⟨_, m, ?_, ?_, hval⟩
  · rw [← ofLimbs_append_top hlen]
    rfl
  · refine Nat.lt_of_mul_lt_mul_left (a := limbRadix ^ 6) ?_
    calc limbRadix ^ 6 * ciosValue _ = x * y + Config.p * m := hval
      _ < Config.p * limbRadix ^ 6 + Config.p * limbRadix ^ 6 :=
        Nat.add_lt_add (Nat.mul_lt_mul'' hx (hy.trans p_lt_limbs)) (Nat.mul_lt_mul_of_pos_left hm Config.p_pos)
      _ = limbRadix ^ 6 * (2 * Config.p) := by ring

theorem cios_lt {x y : Nat} (hx : x < Config.p) (hy : y < Config.p) : cios x y < Config.p := by
  obtain ⟨n, -, heq, hlt, -⟩ := cios_eq_sub_once hx hy
  rw [heq]
  exact sub_once_lt hlt

theorem cios_eq_montMul {x y : Nat} (hx : x < Config.p) (hy : y < Config.p) : cios x y = montMul x y := by
  obtain ⟨n, m, heq, -, hval⟩ := cios_eq_sub_once hx hy
  refine eq_of_natCast_eq (cios_lt hx hy) (montMul_lt x y) ?_
  rw [← radix_eq_limbs] at hval
  have hcast := congrArg (Nat.cast (R := ZMod Config.p)) hval
  push_cast [ZMod.natCast_self] at hcast
  rw [heq, sub_once_cast, montMul_cast]
  linear_combination (Config.radixInv : ZMod Config.p) * hcast - (n : ZMod Config.p) * radix_mul_radixInv_cast

end Sys2Proof.Machine

namespace Sys2Proof.Proofs

open Sys2Proof.Machine

/-- Settles O25: in `ZMod p` the three operations are x·y·R^(−1), x + y and x − y, and a word below p is known by its
residue class. -/
theorem multiplierAndAdderComputeModP : Obligations.MultiplierAndAdderComputeModP :=
  ⟨fun x y hx hy => ⟨montMul_lt x y, montMul_mul_radix x y, addMod_lt hx hy, rfl, subMod_lt hx hy, subMod_int hy⟩,
    fun a b => ⟨montMul_mont a b, addMod_mont a b, subMod_mont a b⟩⟩

/-- Settles O26: each pass divides t + x·y_i + m·p by the limb radix exactly (`ciosPass_value`), so the six passes leave a
number below 2p that is congruent to the Montgomery product. -/
theorem ciosIsMontMul : Obligations.CiosIsMontMul := fun _ _ hx hy => ⟨cios_eq_montMul hx hy, cios_lt hx hy⟩

end Sys2Proof.Proofs
end

section
/-! PROOFS. The Fp commands on values (O27 to O29, O31, O33) and the squares of Fp (O32). -/

namespace Sys2Proof.Machine

/-! ### Commands on canonical words -/

theorem holds_word_of_fp {s : State} {a : SlotAddr} {x : Fp} (h : holds layoutFp s a x = true) :
    holds layoutWord s a (mont x) = true := by
  have hplaced : (fits s a 1 && slotsHold s a.toNat [(mont x).slotWord]) = true := h
  exact hplaced

section Shapes

variable {i : Instr} {opc : BitVec 8} {s : State} {d a b : SlotAddr}

/-- A command on two words, whose result is given as a number. -/
theorem completes_binary_word {f : Fp → Fp → Nat} {v w : Fp} {n : Nat}
    (hi : exec i s = binary opc layoutResult layoutWord layoutWord f d a b s) (hd : fits s d 1 = true)
    (ha : holds layoutWord s a v = true) (hb : holds layoutWord s b w = true) (hf : f v w = n) :
    completes i s { writes := place d.toNat [BitVec.ofNat 384 n] } := by
  subst hf
  exact hi.trans (commandDAB_of_holds lawful_word lawful_word hd ha hb)

/-- A command on one word, whose result is given as a number with FLAG. -/
theorem completes_unary_word {f : Fp → Nat} {g : Fp → Bool} {v : Fp} {n : Nat} {flag : Bool}
    (hi : exec i s = unaryFlag opc layoutResult layoutWord f g d a s) (hd : fits s d 1 = true)
    (ha : holds layoutWord s a v = true) (hf : f v = n) (hg : g v = flag) :
    completes i s { writes := place d.toNat [BitVec.ofNat 384 n], flag := flag } := by
  subst hf hg
  exact hi.trans (commandDA_of_holds lawful_word hd ha)

theorem completes_test1 {α : Type} {L : Layout α} (hL : Lawful L) {g : α → Bool} {x : α} {flag : Bool}
    (hi : exec i s = test1 opc L g a s) (ha : holds L s a x = true) (hg : g x = flag) :
    completes i s (flagging flag) := by
  subst hg
  exact hi.trans (commandA_of_holds hL ha)

theorem completes_test2 {α β : Type} {L : Layout α} {M : Layout β} (hL : Lawful L) (hM : Lawful M) {g : α → β → Bool}
    {x : α} {y : β} {flag : Bool} (hi : exec i s = test2 opc L M g a b s) (ha : holds L s a x = true)
    (hb : holds M s b y = true) (hg : g x y = flag) : completes i s (flagging flag) := by
  subst hg
  exact hi.trans (commandAB_of_holds hL hM ha hb)

end Shapes

/-! ### The words of 0, −x and a plain integer -/

theorem mont_zero_val : (mont Fp.zero).val = 0 := by decide +kernel

theorem mont_val_eq_zero {x : Fp} : (mont x).val = 0 ↔ x = Fp.zero := by
  rw [← mont_zero_val, ← Fin.ext_iff]
  exact (Function.LeftInverse.injective valOf_mont).eq_iff

/-- R84's two cases are the difference 0 − x. -/
theorem neg_eq_subMod_zero (n : Nat) : (if n = 0 then 0 else Config.p - n) = subMod 0 n := by
  unfold subMod
  split <;> split <;> omega

theorem montMul_rsq (x : Nat) : montMul x Config.rsq = x * 2 ^ 384 % Config.p := by
  refine eq_of_natCast_eq (montMul_lt _ _) (Nat.mod_lt _ Config.p_pos) ?_
  change _ = ((x * Config.radix % Config.p : Nat) : ZMod Config.p)
  rw [montMul_cast, rsq_cast, ZMod.natCast_mod, Nat.cast_mul]
  linear_combination (x * Config.radix : ZMod Config.p) * radix_mul_radixInv_cast

theorem montMul_mont_one (x : Fp) : montMul (mont x).val 1 = x.val := by
  rw [montMul, Nat.mul_one]
  exact congrArg Fin.val (valOf_mont x)

/-! ### Powers and squares -/

/-- Square-and-multiply is the power, in any monoid that reads `mul` and `one`. -/
theorem powFuel_eq_pow {α M : Type} [Monoid M] {ι : α → M} {mul : α → α → α} {one x : α} (hone : ι one = 1)
    (hmul : ∀ y z, ι (mul y z) = ι y * ι z) {fuel e : Nat} (h : e < 2 ^ fuel) :
    ι (powFuel mul one x fuel e) = ι x ^ e := by
  induction fuel generalizing e with
  | zero =>
    obtain rfl : e = 0 := by omega
    rw [powFuel, hone, pow_zero]
  | succ fuel ih =>
    have hhalf := ih (e := e / 2) (by rw [pow_succ] at h; omega)
    have hsplit : ι x ^ e = ι x ^ (e / 2) * ι x ^ (e / 2) * ι x ^ (e % 2) := by
      rw [← pow_add, ← pow_add]
      congr 1
      omega
    rw [powFuel]
    split
    · next h0 => rw [hone, h0, pow_zero]
    · simp only []
      split
      · next hodd => rw [hmul, hmul, hhalf, hsplit, hodd, pow_one]
      · next heven => rw [hmul, hhalf, hsplit, Nat.mod_two_ne_one.1 heven, pow_zero, mul_one]

theorem Fp.toZMod_pow (x : Fp) {e : Nat} (h : e < Config.p) : (x.pow e).toZMod = x.toZMod ^ e :=
  powFuel_eq_pow (ι := Fp.toZMod) Fp.toZMod_one Fp.toZMod_mul (h.trans p_lt_slot)

theorem Fp.toZMod_eq_zero {x : Fp} : x.toZMod = 0 ↔ x = Fp.zero := by
  rw [← Fp.toZMod_zero]
  exact Fp.toZMod_injective.eq_iff

theorem Fp.exists_mul_self {x : Fp} : (∃ c : Fp, c * c = x) ↔ IsSquare x.toZMod := by
  have : Fact Config.p.Prime := ⟨p_prime⟩
  constructor
  · rintro ⟨c, rfl⟩
    exact ⟨c.toZMod, Fp.toZMod_mul c c⟩
  · rintro ⟨z, hz⟩
    exact ⟨Fp.ofNat z.val, Fp.toZMod_injective (by simp [hz])⟩

theorem p_mod_four : Config.p % 4 = 3 := by decide +kernel

/-- Euler's criterion, as ISQNR tests it (R91). -/
theorem Fp.pow_half_eq_one {x : Fp} (hx : x ≠ Fp.zero) :
    x.pow ((Config.p - 1) / 2) = Fp.one ↔ ∃ c : Fp, c * c = x := by
  have : Fact Config.p.Prime := ⟨p_prime⟩
  have hp := p_mod_four
  rw [Fp.exists_mul_self, ZMod.euler_criterion _ (mt Fp.toZMod_eq_zero.1 hx), ← Fp.toZMod_injective.eq_iff,
    Fp.toZMod_pow _ (by omega), Fp.toZMod_one, show (Config.p - 1) / 2 = Config.p / 2 by omega]

/-- The square of SQRT's candidate is x times the power that ISQNR tests, because p is 3 modulo 4 (R90). -/
theorem Fp.root_mul_root (x : Fp) :
    x.pow ((Config.p + 1) / 4) * x.pow ((Config.p + 1) / 4) = x * x.pow ((Config.p - 1) / 2) := by
  have hp := p_mod_four
  apply Fp.toZMod_injective
  rw [Fp.toZMod_mul, Fp.toZMod_mul, Fp.toZMod_pow _ (by omega), Fp.toZMod_pow _ (by omega), ← pow_add, ← pow_succ']
  congr 1

theorem Fp.mul_eq_self {x y : Fp} (hx : x ≠ Fp.zero) : x * y = x ↔ y = Fp.one := by
  have : Fact Config.p.Prime := ⟨p_prime⟩
  rw [← Fp.toZMod_injective.eq_iff, ← Fp.toZMod_injective.eq_iff, Fp.toZMod_mul, Fp.toZMod_one,
    mul_eq_left₀ (mt Fp.toZMod_eq_zero.1 hx)]

theorem Fp.zero_mul (x : Fp) : Fp.zero * x = Fp.zero :=
  Fp.toZMod_injective (by simp)

theorem Fp.root_mul_root_eq_self (x : Fp) :
    x.pow ((Config.p + 1) / 4) * x.pow ((Config.p + 1) / 4) = x ↔ ∃ c : Fp, c * c = x := by
  rw [Fp.root_mul_root]
  by_cases hx : x = Fp.zero
  · subst hx
    exact iff_of_true (Fp.zero_mul _) ⟨Fp.zero, Fp.zero_mul _⟩
  · rw [Fp.mul_eq_self hx, Fp.pow_half_eq_one hx]

theorem Fp.pow_half_zero_ne_one : Fp.zero.pow ((Config.p - 1) / 2) ≠ Fp.one := by decide +kernel

end Sys2Proof.Machine

namespace Sys2Proof.Proofs

open Sys2Proof.Machine

/-- Settles O27: the slots hold the words of x and y, and the unit's operations on words are the field's (`addMod_mont`,
`subMod_mont`, `montMul_mont`). -/
theorem fpBinaryCommandsComplete : Obligations.FpBinaryCommandsComplete := fun _ _ _ _ x y hd ha hb =>
  ⟨completes_binary_word rfl hd (holds_word_of_fp ha) (holds_word_of_fp hb) (addMod_mont x y),
    completes_binary_word rfl hd (holds_word_of_fp ha) (holds_word_of_fp hb) (subMod_mont x y),
    completes_binary_word rfl hd (holds_word_of_fp ha) (holds_word_of_fp hb) (montMul_mont x y)⟩

/-- Settles O28: as O27, with −x as the difference 0 − x (R84), and the conversions as products with RSQ and 1. -/
theorem fpUnaryCommandsComplete : Obligations.FpUnaryCommandsComplete := by
  intro s d a x hd
  refine ⟨fun hfp => ?_, fun hword => completes_unary_word (g := fun _ => false) rfl hd hword (montMul_rsq x.val) rfl⟩
  have ha := holds_word_of_fp hfp
  have hneg : subMod 0 (mont x).val = (mont (Fp.zero - x)).val := by rw [← subMod_mont, mont_zero_val]
  exact ⟨completes_unary_word (g := fun _ => false) rfl hd ha (addMod_mont x x) rfl,
    completes_unary_word (g := fun _ => false) rfl hd ha ((neg_eq_subMod_zero _).trans hneg) rfl,
    completes_unary_word (g := fun _ => false) rfl hd ha (montMul_mont x x) rfl,
    completes_unary_word (g := fun _ => false) rfl hd ha (montMul_mont_one x) rfl⟩

/-- Settles O29: FP.INV is the almost-inverse on the word its source slot holds. -/
theorem fpInvCompletesByAlmostInverse : Obligations.FpInvCompletesByAlmostInverse := fun _ _ _ _ hd ha =>
  completes_unary_word rfl hd ha rfl rfl

/-- Settles O31: the command comes down to its body, whose test is the statement's case split. -/
theorem fpSqrtWritesItsRootOrFails : Obligations.FpSqrtWritesItsRootOrFails := by
  intro s d a x hd ha c
  have hbody : exec (.fpSqrt d a) s =
      finish 0x19 s (if c * c = x then writeD layoutFp d c true else .error (.raise ⟨.nonsquare, .a, a, 0⟩)) :=
    commandDA_of_holds lawful_fp hd ha
  constructor
  · intro hroot
    rw [completes, hbody, if_pos hroot]
    rfl
  · intro hroot
    rw [failsWith, hbody, if_neg hroot]
    rfl

/-- Settles O32: Euler's criterion decides squares (`Fp.pow_half_eq_one`), and the candidate's square is x times the power
it tests (`Fp.root_mul_root`). -/
theorem sqrtAndIsqnrDecideSquares : Obligations.SqrtAndIsqnrDecideSquares := by
  intro x
  refine ⟨Fp.root_mul_root_eq_self x, fun hx => not_congr (Fp.pow_half_eq_one hx), ?_⟩
  rintro rfl
  exact Fp.pow_half_zero_ne_one

/-- Settles O33: each test sees the operand's value; ISZERO sees its word, which is 0 for the value 0 alone. -/
theorem fpTestsSetFlag : Obligations.FpTestsSetFlag := fun _ _ _ _ _ ha =>
  ⟨completes_test1 lawful_fp rfl ha rfl,
    completes_test1 lawful_word rfl (holds_word_of_fp ha) (decide_eq_decide.2 mont_val_eq_zero),
    fun hb => completes_test2 lawful_fp lawful_fp rfl ha hb rfl⟩

end Sys2Proof.Proofs
end

section
/-! PROOFS. The almost-inverse of R89 gives the field inverse (O30), and the laws of R94 on words (O34). -/

namespace Sys2Proof.Machine

/-! ### Phase 1 of the almost-inverse -/

/-- Everything one turn of phase 1 can do: the branches of R89 in their order, with the halved number named. -/
theorem kaliskiStep_cases (q : Kaliski) :
    (∃ h, q.u = 2 * h ∧ kaliskiStep q = ⟨h, q.v, q.r, 2 * q.s, q.k + 1⟩) ∨
    (∃ h, q.v = 2 * h ∧ kaliskiStep q = ⟨q.u, h, 2 * q.r, q.s, q.k + 1⟩) ∨
    (∃ h, q.u = q.v + 2 * h ∧ 0 < h ∧ kaliskiStep q = ⟨h, q.v, q.r + q.s, 2 * q.s, q.k + 1⟩) ∨
    (∃ h, q.v = q.u + 2 * h ∧ kaliskiStep q = ⟨q.u, h, 2 * q.r, q.s + q.r, q.k + 1⟩) := by
  unfold kaliskiStep
  split
  · exact .inl ⟨q.u / 2, by omega, rfl⟩
  · split
    · exact .inr (.inl ⟨q.v / 2, by omega, rfl⟩)
    · split
      · exact .inr (.inr (.inl ⟨(q.u - q.v) / 2, by omega, by omega, rfl⟩))
      · exact .inr (.inr (.inr ⟨(q.v - q.u) / 2, by omega, rfl⟩))

/-- What phase 1 keeps for the input x: the numbers u and v stay coprime with u·s + v·r = p, and r and s stand for −u·2^k
and v·2^k over x modulo p. While v ≠ 0 the sum keeps r below p, so that r ends below 2p; r and s grow to at most 2^k. -/
structure Kaliski.Inv (x : Nat) (q : Kaliski) : Prop where
  u_pos : 0 < q.u
  s_pos : 0 < q.s
  coprime : Nat.Coprime q.u q.v
  sum : q.u * q.s + q.v * q.r = Config.p
  r_lt : q.r < 2 * Config.p
  r_le : q.r ≤ 2 ^ q.k
  s_le : q.s ≤ 2 ^ q.k
  r_cast : (x * q.r : ZMod Config.p) = -(q.u * 2 ^ q.k)
  s_cast : (x * q.s : ZMod Config.p) = q.v * 2 ^ q.k

theorem kaliskiInit_inv {x : Nat} (hx : 0 < x) (hlt : x < Config.p) : Kaliski.Inv x ⟨Config.p, x, 0, 1, 0⟩ where
  u_pos := Config.p_pos
  s_pos := Nat.one_pos
  coprime := Nat.coprime_of_lt_prime hx.ne' hlt p_prime
  sum := by simp
  r_lt := Nat.mul_pos Nat.two_pos Config.p_pos
  r_le := Nat.zero_le _
  s_le := le_rfl
  r_cast := by simp
  s_cast := by simp

/-- While v ≠ 0, the sum u·s + v·r = p bounds r + s. -/
theorem Kaliski.Inv.add_le {x : Nat} {q : Kaliski} (h : q.Inv x) (hv : q.v ≠ 0) : q.r + q.s ≤ Config.p := by
  have hs := Nat.le_mul_of_pos_left q.s h.u_pos
  have hr := Nat.le_mul_of_pos_left q.r (Nat.pos_of_ne_zero hv)
  have hsum := h.sum
  omega

theorem Kaliski.Inv.step {x : Nat} {q : Kaliski} (h : q.Inv x) (hv : q.v ≠ 0) : (kaliskiStep q).Inv x := by
  have hadd := h.add_le hv
  have hcases := kaliskiStep_cases q
  obtain ⟨hu_pos, hs_pos, hco, hsum, -, hr, hs, hrc, hsc⟩ := h
  obtain ⟨u, v, r, s, k⟩ := q
  have hpow : 2 ^ (k + 1) = 2 * 2 ^ k := pow_succ' 2 k
  dsimp only at *
  obtain ⟨m, rfl, hstep⟩ | ⟨m, rfl, hstep⟩ | ⟨m, rfl, hm, hstep⟩ | ⟨m, rfl, hstep⟩ := hcases <;> rw [hstep] <;>
    push_cast at hrc hsc
  · constructor <;> push_cast
    exacts [by omega, by omega, hco.coprime_mul_left, by rw [← hsum]; ring, by omega, by omega, by omega,
      by linear_combination hrc, by linear_combination 2 * hsc]
  · constructor <;> push_cast
    exacts [hu_pos, hs_pos, hco.coprime_mul_left_right, by rw [← hsum]; ring, by omega, by omega, by omega,
      by linear_combination 2 * hrc, by linear_combination hsc]
  · have hco' : Nat.Coprime (2 * m) v := by simpa using hco
    constructor <;> push_cast
    exacts [hm, by omega, hco'.coprime_mul_left, by rw [← hsum]; ring, by omega, by omega, by omega,
      by linear_combination hrc + hsc, by linear_combination 2 * hsc]
  · have hco' : Nat.Coprime u (2 * m) := by simpa using hco
    constructor <;> push_cast
    exacts [hu_pos, by omega, hco'.coprime_mul_left_right, by rw [← hsum]; ring, by omega, by omega, by omega,
      by linear_combination 2 * hrc, by linear_combination hsc + hrc]

theorem kaliskiLoop_inv {x : Nat} (fuel : Nat) {q : Kaliski} (h : q.Inv x) : (kaliskiLoop fuel q).Inv x := by
  induction fuel generalizing q with
  | zero => exact h
  | succ fuel ih =>
    rw [kaliskiLoop]
    split
    · exact h
    · next hv => exact ih (h.step hv)

/-- One turn halves u·v at least, and k counts the turns. -/
theorem kaliskiStep_halves (q : Kaliski) :
    2 * ((kaliskiStep q).u * (kaliskiStep q).v) ≤ q.u * q.v ∧ (kaliskiStep q).k = q.k + 1 := by
  obtain ⟨m, hm, hstep⟩ | ⟨m, hm, hstep⟩ | ⟨m, hm, -, hstep⟩ | ⟨m, hm, hstep⟩ := kaliskiStep_cases q <;> rw [hstep, hm]
  · exact ⟨(Nat.mul_assoc 2 m q.v).ge, rfl⟩
  · exact ⟨(Nat.mul_left_comm 2 q.u m).le, rfl⟩
  · exact ⟨(Nat.mul_assoc 2 m q.v).ge.trans (Nat.mul_le_mul_right _ (Nat.le_add_left _ _)), rfl⟩
  · exact ⟨(Nat.mul_left_comm 2 q.u m).le.trans (Nat.mul_le_mul_left _ (Nat.le_add_left _ _)), rfl⟩

/-- The bound on k is never what ends phase 1: a product u·v below 2^fuel is used up within the fuel. -/
theorem kaliskiLoop_ends {x : Nat} (fuel : Nat) {q : Kaliski} (h : q.Inv x) (hlt : q.u * q.v < 2 ^ fuel) :
    (kaliskiLoop fuel q).v = 0 ∧ (kaliskiLoop fuel q).k ≤ q.k + fuel := by
  induction fuel generalizing q with
  | zero =>
    have huv := Nat.mul_eq_zero.1 (Nat.lt_one_iff.1 hlt)
    exact ⟨huv.resolve_left h.u_pos.ne', le_rfl⟩
  | succ fuel ih =>
    rw [kaliskiLoop]
    split
    · next hv => exact ⟨hv, Nat.le_add_right _ _⟩
    · next hv =>
      obtain ⟨hhalf, hk⟩ := kaliskiStep_halves q
      obtain ⟨hv', hk'⟩ := ih (h.step hv) (by rw [pow_succ] at hlt; omega)
      exact ⟨hv', by omega⟩

/-! ### Phase 2 and the result -/

theorem doubleMod_lt {n y : Nat} (hy : y < Config.p) : doubleMod n y < Config.p := by
  induction n generalizing y with
  | zero => exact hy
  | succ n ih => exact ih (addMod_lt hy hy)

theorem doubleMod_cast (n y : Nat) : (doubleMod n y : ZMod Config.p) = 2 ^ n * y := by
  induction n generalizing y with
  | zero => simp [doubleMod]
  | succ n ih =>
    rw [doubleMod, ih, addMod_cast]
    ring

/-- Where phase 1 stops with v = 0: u is 1, s is p, and so k has reached the bit length of p (R89). -/
theorem Kaliski.Inv.final {x : Nat} {q : Kaliski} (h : q.Inv x) (hv : q.v = 0) : q.u = 1 ∧ pBits ≤ q.k := by
  have hu : q.u = 1 := by simpa [hv] using h.coprime
  have hs : q.s = Config.p := by simpa [hv, hu] using h.sum
  refine ⟨hu, (Nat.pow_lt_pow_iff_right Nat.one_lt_two).1 (?_ : 2 ^ 380 < 2 ^ q.k)⟩
  calc 2 ^ 380 < Config.p := by decide +kernel
    _ ≤ 2 ^ q.k := hs ▸ h.s_le

theorem kaliskiInv_zero : kaliskiInv 0 = (0, false) := rfl

/-- The bound check of R89 never fires on a canonical word: phase 1 leaves some k within its bound and an r below p that
stands for −2^k over x. -/
theorem kaliskiInv_eq {x : Nat} (hx : 0 < x) (hlt : x < Config.p) :
    ∃ k r, k ≤ 2 * pBits ∧ r < Config.p ∧ (x * r : ZMod Config.p) = -2 ^ k ∧
      kaliskiInv x = (doubleMod (768 - k) (Config.p - r), true) := by
  have hinit := kaliskiInit_inv hx hlt
  have hprod : Config.p * x < 2 ^ (2 * pBits) := by
    have hbits : Config.p * Config.p < 2 ^ (2 * pBits) := by decide +kernel
    exact (Nat.mul_le_mul_left _ hlt.le).trans_lt hbits
  obtain ⟨hv, hk⟩ := kaliskiLoop_ends (2 * pBits) hinit hprod
  have hinv := kaliskiLoop_inv (2 * pBits) hinit
  obtain ⟨hu, hbits⟩ := hinv.final hv
  rw [Nat.zero_add] at hk
  refine ⟨_, _, hk, sub_once_lt hinv.r_lt, ?_, ?_⟩
  · rw [sub_once_cast, hinv.r_cast, hu, Nat.cast_one, one_mul]
  · rw [kaliskiInv, if_neg hx.ne', if_neg (by omega)]

theorem two_ne_zero_cast : (2 : ZMod Config.p) ≠ 0 := by decide +kernel

/-- The almost-inverse of a nonzero word x: a word below p whose product with x is R² modulo p, with FLAG 1. -/
theorem kaliskiInv_spec {x : Nat} (hx : 0 < x) (hlt : x < Config.p) :
    (kaliskiInv x).1 < Config.p ∧ (kaliskiInv x).2 = true ∧
      (x * (kaliskiInv x).1 : ZMod Config.p) = Config.radix ^ 2 := by
  have : Fact Config.p.Prime := ⟨p_prime⟩
  obtain ⟨k, r, hk, hrlt, hr, heq⟩ := kaliskiInv_eq hx hlt
  have hrpos : 0 < r := by
    refine Nat.pos_of_ne_zero fun h0 => pow_ne_zero k two_ne_zero_cast ?_
    rw [← neg_eq_zero, ← hr, h0, Nat.cast_zero, mul_zero]
  have hpow : (2 ^ (768 - k) * 2 ^ k : ZMod Config.p) = Config.radix ^ 2 := by
    rw [← pow_add, Nat.sub_add_cancel (hk.trans (by decide)), Config.radix, Nat.cast_pow, Nat.cast_ofNat, ← pow_mul]
  rw [heq]
  refine ⟨doubleMod_lt (by omega), rfl, ?_⟩
  rw [doubleMod_cast, Nat.cast_sub hrlt.le, ZMod.natCast_self, ← hpow]
  linear_combination (-(2 ^ (768 - k)) : ZMod Config.p) * hr

theorem exists_mont_eq {n : Nat} (h : n < Config.p) : ∃ y : Fp, (mont y).val = n :=
  ⟨valOf ⟨n, h⟩, congrArg Fin.val (mont_valOf ⟨n, h⟩)⟩

/-- On Montgomery words the almost-inverse is the inverse of values (R89). -/
theorem kaliskiInv_mont {x : Fp} (hx : x ≠ Fp.zero) :
    ∃ y : Fp, x * y = Fp.one ∧ kaliskiInv (mont x).val = ((mont y).val, true) := by
  obtain ⟨hlt, hflag, hmul⟩ := kaliskiInv_spec (Nat.pos_of_ne_zero (mt mont_val_eq_zero.1 hx)) (mont x).isLt
  obtain ⟨y, hy⟩ := exists_mont_eq hlt
  refine ⟨y, Fp.toZMod_injective ?_, Prod.ext hy.symm hflag⟩
  rw [← hy, mont_cast, mont_cast] at hmul
  rw [Fp.toZMod_mul, Fp.toZMod_one]
  linear_combination (Config.radixInv : ZMod Config.p) ^ 2 * hmul +
    (1 - x.toZMod * y.toZMod) * (Config.radix * Config.radixInv + 1) * radix_mul_radixInv_cast

/-! ### The laws of R94 on words -/

theorem addMod_comm (x y : Nat) : addMod x y = addMod y x := by
  rw [addMod, addMod, Nat.add_comm]

theorem montMul_comm (x y : Nat) : montMul x y = montMul y x := by
  rw [montMul, montMul, Nat.mul_comm x]

theorem montMul_zero (x : Nat) : montMul x 0 = 0 := by
  rw [montMul, Nat.mul_zero, Nat.zero_mul, Nat.zero_mod]

theorem subMod_self (x : Nat) : subMod x x = 0 := by
  rw [subMod, if_neg (Nat.lt_irrefl x), Nat.sub_self]

theorem addMod_assoc {x y z : Nat} (hx : x < Config.p) (hy : y < Config.p) (hz : z < Config.p) :
    addMod (addMod x y) z = addMod x (addMod y z) :=
  eq_of_natCast_eq (addMod_lt (addMod_lt hx hy) hz) (addMod_lt hx (addMod_lt hy hz)) (by simp only [addMod_cast, add_assoc])

theorem montMul_assoc (x y z : Nat) : montMul (montMul x y) z = montMul x (montMul y z) :=
  eq_of_natCast_eq (montMul_lt _ _) (montMul_lt _ _) (by simp only [montMul_cast]; ring)

theorem montMul_addMod (x y z : Nat) : montMul x (addMod y z) = addMod (montMul x y) (montMul x z) :=
  eq_of_natCast_eq (montMul_lt _ _) (addMod_lt (montMul_lt _ _) (montMul_lt _ _))
    (by simp only [montMul_cast, addMod_cast]; ring)

section CanonicalWord

variable {x : Nat} (hx : x < Config.p)

include hx

theorem addMod_zero : addMod x 0 = x := if_neg hx.not_ge

theorem subMod_zero_zero : subMod 0 (subMod 0 x) = x := by
  have hlt := subMod_lt Config.p_pos hx
  refine eq_of_natCast_eq (subMod_lt Config.p_pos hlt) hx ?_
  rw [subMod_cast 0 hlt, subMod_cast 0 hx, sub_sub_cancel]

/-- R is the word of 1. -/
theorem montMul_one : montMul x (mont Fp.one).val = x := by
  refine eq_of_natCast_eq (montMul_lt _ _) hx ?_
  rw [montMul_cast, mont_cast, Fp.toZMod_one]
  linear_combination (x : ZMod Config.p) * radix_mul_radixInv_cast

theorem montMul_kaliskiInv (h0 : x ≠ 0) : montMul x (kaliskiInv x).1 = (mont Fp.one).val := by
  refine eq_of_natCast_eq (montMul_lt _ _) (mont _).isLt ?_
  rw [montMul_cast, (kaliskiInv_spec (Nat.pos_of_ne_zero h0) hx).2.2, mont_cast, Fp.toZMod_one]
  linear_combination (Config.radix : ZMod Config.p) * radix_mul_radixInv_cast

/-- TOMONT, then FROMMONT. -/
theorem montMul_rsq_one : montMul (montMul x Config.rsq) 1 = x := by
  rw [montMul_rsq]
  exact montMul_mont_one ⟨x, hx⟩

end CanonicalWord

end Sys2Proof.Machine

namespace Sys2Proof.Proofs

open Sys2Proof.Machine

/-- Settles O30: phase 1 keeps `Kaliski.Inv` and halves u·v at each turn, so it ends with u = 1 within its bound, and
phase 2 brings −r to R²/x (`kaliskiInv_spec`), the word of the inverse. -/
theorem fpInvIsTheFieldInverse : Obligations.FpInvIsTheFieldInverse := by
  intro s d a x hd ha
  have hword := holds_word_of_fp ha
  by_cases hx : x = Fp.zero
  · subst hx
    refine ⟨Fp.zero, fun _ => rfl, fun h => absurd rfl h, completes_unary_word rfl hd hword ?_ ?_⟩
    · rw [mont_zero_val, kaliskiInv_zero]
    · rw [mont_zero_val, kaliskiInv_zero, decide_eq_false (not_not.2 rfl)]
  · obtain ⟨y, hmul, hinv⟩ := kaliskiInv_mont hx
    refine ⟨y, fun h => absurd h hx, fun _ => hmul, completes_unary_word rfl hd hword ?_ ?_⟩
    · rw [hinv]
    · rw [hinv, decide_eq_true hx]

/-- Settles O34: the laws of `ZMod p`, read on words below p. -/
theorem fpWordLaws : Obligations.FpWordLaws := fun x y z hx hy hz =>
  ⟨addMod_comm x y, addMod_assoc hx hy hz, montMul_comm x y, montMul_assoc x y z, montMul_addMod x y z, addMod_zero hx,
    montMul_one hx, montMul_zero x, subMod_self x, subMod_zero_zero hx, montMul_kaliskiInv hx, rfl, montMul_rsq x,
    montMul_rsq_one hx⟩

end Sys2Proof.Proofs
end

section
/-! PROOFS. The tower commands on values (O35 to O38): with its operands in place, a command of one of the shapes writes
the words of its function's value. -/

namespace Sys2Proof.Machine

section Shapes

variable {α β γ : Type} {LD : Layout γ} {LA : Layout α} {LB : Layout β} {i : Instr} {opc : BitVec 8} {s : State}
  {d a b : SlotAddr} {x : α} {y : β} {v : γ}

theorem completes_unaryFlag (hA : Lawful LA) {f : α → γ} {g : α → Bool} {flag : Bool}
    (hi : exec i s = unaryFlag opc LD LA f g d a s) (hd : fits s d LD.extent = true) (ha : holds LA s a x = true)
    (hf : f x = v) (hg : g x = flag) : completes i s { writing LD d v with flag := flag } := by
  subst hf hg
  exact hi.trans (commandDA_of_holds hA hd ha)

theorem completes_unary (hA : Lawful LA) {f : α → γ} (hi : exec i s = unary opc LD LA f d a s)
    (hd : fits s d LD.extent = true) (ha : holds LA s a x = true) (hf : f x = v) :
    completes i s (writing LD d v) :=
  completes_unaryFlag hA (g := fun _ => false) hi hd ha hf rfl

theorem completes_binary (hA : Lawful LA) (hB : Lawful LB) {f : α → β → γ}
    (hi : exec i s = binary opc LD LA LB f d a b s) (hd : fits s d LD.extent = true) (ha : holds LA s a x = true)
    (hb : holds LB s b y = true) (hf : f x y = v) : completes i s (writing LD d v) := by
  subst hf
  exact hi.trans (commandDAB_of_holds hA hB hd ha hb)

end Shapes

end Sys2Proof.Machine

namespace Sys2Proof.Proofs

open Sys2Proof.Machine

/-- Settles O35: each command's function has the coordinates of its rule by definition, the product those of R96. -/
theorem fp2CommandsComplete : Obligations.Fp2CommandsComplete := fun _ _ _ _ _ _ _ hd ha =>
  ⟨completes_unary lawful_fp2 rfl hd ha rfl, completes_unary lawful_fp2 rfl hd ha rfl,
    completes_unary lawful_fp2 rfl hd ha rfl, completes_unary lawful_fp2 rfl hd ha rfl,
    completes_unary lawful_fp2 rfl hd ha rfl,
    fun hb => ⟨completes_binary lawful_fp2 lawful_fp2 rfl hd ha hb rfl,
      completes_binary lawful_fp2 lawful_fp2 rfl hd ha hb rfl,
      completes_binary lawful_fp2 lawful_fp2 rfl hd ha hb rfl⟩⟩

/-- Settles O36: INV and EQ of each level come down to their functions of the operands' values. -/
theorem towerInvAndEqComplete : Obligations.TowerInvAndEqComplete :=
  ⟨fun _ _ _ _ _ _ ha => ⟨fun hd => completes_unaryFlag lawful_fp2 rfl hd ha rfl rfl,
      fun hb => completes_test2 lawful_fp2 lawful_fp2 rfl ha hb rfl⟩,
    fun _ _ _ _ _ _ ha => ⟨fun hd => completes_unaryFlag lawful_fp6 rfl hd ha rfl rfl,
      fun hb => completes_test2 lawful_fp6 lawful_fp6 rfl ha hb rfl⟩,
    fun _ _ _ _ _ _ ha => ⟨fun hd => completes_unaryFlag lawful_fp12 rfl hd ha rfl rfl,
      fun hb => completes_test2 lawful_fp12 lawful_fp12 rfl ha hb rfl⟩⟩

/-- Settles O37: as O35; MULBY01 and MULBY1 are products with the missing coefficients 0 (R117, R118). -/
theorem fp6CommandsComplete : Obligations.Fp6CommandsComplete := fun _ _ _ _ _ _ _ _ _ hd ha =>
  ⟨completes_unary lawful_fp6 rfl hd ha rfl, completes_unary lawful_fp6 rfl hd ha rfl,
    completes_unary lawful_fp6 rfl hd ha rfl, completes_unary lawful_fp6 rfl hd ha rfl,
    fun hb => ⟨completes_binary lawful_fp6 lawful_fp6 rfl hd ha hb rfl,
      completes_binary lawful_fp6 lawful_fp6 rfl hd ha hb rfl,
      completes_binary lawful_fp6 lawful_fp6 rfl hd ha hb rfl⟩,
    fun hb => completes_binary lawful_fp6 lawful_sparse2 rfl hd ha hb rfl,
    fun hb => completes_binary lawful_fp6 lawful_fp2 rfl hd ha hb rfl⟩

/-- Settles O38: as O35; the sparse products have the missing coefficients 0 (R129, R130), and CSQR is the formula of R131
with its squares and doublings written out. -/
theorem fp12CommandsComplete : Obligations.Fp12CommandsComplete := fun _ _ _ _ _ _ _ _ _ _ _ hd ha =>
  ⟨completes_unary lawful_fp12 rfl hd ha rfl, completes_unary lawful_fp12 rfl hd ha rfl,
    completes_unary lawful_fp12 rfl hd ha rfl, completes_unary lawful_fp12 rfl hd ha rfl,
    completes_unary lawful_fp12 rfl hd ha rfl, completes_unary lawful_fp12 rfl hd ha rfl,
    fun hb => ⟨completes_binary lawful_fp12 lawful_fp12 rfl hd ha hb rfl,
      completes_binary lawful_fp12 lawful_fp12 rfl hd ha hb rfl,
      completes_binary lawful_fp12 lawful_fp12 rfl hd ha hb rfl⟩,
    fun hb => completes_binary lawful_fp12 lawful_sparse3 rfl hd ha hb rfl,
    fun hb => completes_binary lawful_fp12 lawful_sparse3 rfl hd ha hb rfl⟩

end Sys2Proof.Proofs
end

section
/-! PROOFS. The tower fields read in one field: an algebraic closure of `ZMod p`, in which u, v and w of R10 are roots. There
FROB with power k is the power p^k (O40), and each norm of R97 is a product of Frobenius powers, so that INV gives the
inverse (O39). -/

namespace Sys2Proof.Machine

/-! ### The norm from Fp6 to Fp2 (R97) -/

/-- The product of the two conjugates of x over Fp2 (`TowerIn.read6_cofactor`). -/
def Fp6.cofactor (x : Fp6) : Fp6 :=
  ⟨x.c0.sqr.sub (x.c1.mul x.c2).mulXi, x.c2.sqr.mulXi.sub (x.c0.mul x.c1), x.c1.sqr.sub (x.c0.mul x.c2)⟩

/-- The norm of x to Fp2: the product of x and its two conjugates (`TowerIn.read2_norm`). -/
def Fp6.norm (x : Fp6) : Fp2 :=
  (x.c0.mul x.cofactor.c0).add ((x.c2.mul x.cofactor.c1).add (x.c1.mul x.cofactor.c2)).mulXi

theorem Fp6.inv_eq (x : Fp6) : x.inv = x.cofactor.scale x.norm.inv := rfl

/-! ### Reading the tower in a ring -/

/-- Elements u, v and w of a ring that obey the equations of R10: u² = −1, v³ = ξ = 1 + u, w² = v. -/
structure TowerIn (K : Type) [CommRing K] where
  u : K
  v : K
  w : K
  u_sq : u ^ 2 = -1
  v_cube : v ^ 3 = 1 + u
  w_sq : w ^ 2 = v

section Ring

variable (K : Type) [CommRing K] [CharP K Config.p]

/-- A field value in a ring of characteristic p. -/
def Fp.readIn (x : Fp) : K := ZMod.castHom (dvd_refl Config.p) K x.toZMod

@[simp] theorem Fp.readIn_zero : Fp.zero.readIn K = 0 := by simp [readIn]
@[simp] theorem Fp.readIn_one : Fp.one.readIn K = 1 := by simp [readIn]
@[simp] theorem Fp.readIn_add (x y : Fp) : (x + y).readIn K = x.readIn K + y.readIn K := by simp [readIn]
@[simp] theorem Fp.readIn_sub (x y : Fp) : (x - y).readIn K = x.readIn K - y.readIn K := by simp [readIn]
@[simp] theorem Fp.readIn_mul (x y : Fp) : (x * y).readIn K = x.readIn K * y.readIn K := by simp [readIn]
@[simp] theorem Fp.readIn_neg (x : Fp) : x.neg.readIn K = -x.readIn K := by simp [Fp.neg]

theorem Fp.readIn_injective : Function.Injective (Fp.readIn K) :=
  (ZMod.castHom_injective K).comp Fp.toZMod_injective

end Ring

namespace TowerIn

section Ring

variable {K : Type} [CommRing K] [CharP K Config.p] (T : TowerIn K)

/-- The element a0 + a1·u. -/
def read2 (x : Fp2) : K := x.c0.readIn K + x.c1.readIn K * T.u

/-- The element a0 + a1·v + a2·v². -/
def read6 (x : Fp6) : K := T.read2 x.c0 + T.read2 x.c1 * T.v + T.read2 x.c2 * T.v ^ 2

/-- The element a0 + a1·w. -/
def read12 (x : Fp12) : K := T.read6 x.c0 + T.read6 x.c1 * T.w

@[simp] theorem read2_zero : T.read2 Fp2.zero = 0 := by simp [read2, Fp2.zero]

@[simp] theorem read2_one : T.read2 Fp2.one = 1 := by simp [read2, Fp2.one]

@[simp] theorem read2_add (x y : Fp2) : T.read2 (x.add y) = T.read2 x + T.read2 y := by
  simp only [read2, Fp2.add, Fp.readIn_add]
  ring

@[simp] theorem read2_sub (x y : Fp2) : T.read2 (x.sub y) = T.read2 x - T.read2 y := by
  simp only [read2, Fp2.sub, Fp.readIn_sub]
  ring

@[simp] theorem read2_neg (x : Fp2) : T.read2 x.neg = -T.read2 x := by
  simp only [read2, Fp2.neg, Fp.readIn_neg]
  ring

@[simp] theorem read2_mul (x y : Fp2) : T.read2 (x.mul y) = T.read2 x * T.read2 y := by
  simp only [read2, Fp2.mul, Fp.readIn_add, Fp.readIn_sub, Fp.readIn_mul]
  linear_combination (-(x.c1.readIn K * y.c1.readIn K)) * T.u_sq

@[simp] theorem read2_sqr (x : Fp2) : T.read2 x.sqr = T.read2 x ^ 2 := by
  rw [Fp2.sqr, read2_mul, sq]

theorem read2_conj (x : Fp2) : T.read2 x.conj = x.c0.readIn K - x.c1.readIn K * T.u := by
  simp only [read2, Fp2.conj, Fp.readIn_neg]
  ring

@[simp] theorem read2_scale (x : Fp2) (k : Fp) : T.read2 (x.scale k) = T.read2 x * k.readIn K := by
  simp only [read2, Fp2.scale, Fp.readIn_mul]
  ring

@[simp] theorem read2_mulXi (x : Fp2) : T.read2 x.mulXi = T.v ^ 3 * T.read2 x := by
  simp only [read2, Fp2.mulXi, Fp.readIn_add, Fp.readIn_sub, T.v_cube]
  linear_combination (-x.c1.readIn K) * T.u_sq

@[simp] theorem read6_zero : T.read6 Fp6.zero = 0 := by simp [read6, Fp6.zero]

@[simp] theorem read6_one : T.read6 Fp6.one = 1 := by simp [read6, Fp6.one]

@[simp] theorem read6_add (x y : Fp6) : T.read6 (x.add y) = T.read6 x + T.read6 y := by
  simp only [read6, Fp6.add, read2_add]
  ring

@[simp] theorem read6_sub (x y : Fp6) : T.read6 (x.sub y) = T.read6 x - T.read6 y := by
  simp only [read6, Fp6.sub, read2_sub]
  ring

@[simp] theorem read6_neg (x : Fp6) : T.read6 x.neg = -T.read6 x := by
  simp only [read6, Fp6.neg, read2_neg]
  ring

@[simp] theorem read6_mul (x y : Fp6) : T.read6 (x.mul y) = T.read6 x * T.read6 y := by
  simp only [read6, Fp6.mul, read2_add, read2_mul, read2_mulXi]
  ring

@[simp] theorem read6_sqr (x : Fp6) : T.read6 x.sqr = T.read6 x ^ 2 := by
  rw [Fp6.sqr, read6_mul, sq]

@[simp] theorem read6_mulV (x : Fp6) : T.read6 x.mulV = T.v * T.read6 x := by
  simp only [read6, Fp6.mulV, read2_mulXi]
  ring

@[simp] theorem read6_scale (x : Fp6) (k : Fp2) : T.read6 (x.scale k) = T.read6 x * T.read2 k := by
  simp only [read6, Fp6.scale, read2_mul]
  ring

theorem read2_norm (x : Fp6) : T.read2 x.norm = T.read6 x * T.read6 x.cofactor := by
  simp only [read6, Fp6.norm, Fp6.cofactor, read2_add, read2_sub, read2_mul, read2_sqr, read2_mulXi]
  ring

@[simp] theorem read12_zero : T.read12 Fp12.zero = 0 := by simp [read12, Fp12.zero]

@[simp] theorem read12_one : T.read12 Fp12.one = 1 := by simp [read12, Fp12.one]

@[simp] theorem read12_mul (x y : Fp12) : T.read12 (x.mul y) = T.read12 x * T.read12 y := by
  simp only [read12, Fp12.mul, read6_add, read6_mul, read6_mulV]
  linear_combination (-(T.read6 x.c1 * T.read6 y.c1)) * T.w_sq

theorem w_pow_six : T.w ^ 6 = T.read2 ⟨Fp.one, Fp.one⟩ := by
  rw [show 6 = 2 * 3 from rfl, pow_mul, T.w_sq, T.v_cube]
  simp [read2]

end Ring

end TowerIn

/-- An algebraically closed field has the roots. -/
theorem exists_towerIn (K : Type) [Field K] [IsAlgClosed K] : Nonempty (TowerIn K) := by
  obtain ⟨u, hu⟩ := IsAlgClosed.exists_pow_nat_eq (-1 : K) (n := 2) (by decide)
  obtain ⟨w, hw⟩ := IsAlgClosed.exists_pow_nat_eq (1 + u) (n := 6) (by decide)
  exact ⟨⟨u, w ^ 2, w, hu, by rw [← pow_mul, hw], rfl⟩⟩

/-! ### The tables of R98 -/

@[simp] theorem frobGamma1_mod_six (k : Nat) : frobGamma1 (k % 6) = frobGamma1 k := by
  rw [frobGamma1, Nat.mod_mod, frobGamma1]

@[simp] theorem frobGamma2_mod_six (k : Nat) : frobGamma2 (k % 6) = frobGamma2 k := by
  rw [frobGamma2, Nat.mod_mod, frobGamma2]

@[simp] theorem frobGammaW_mod_twelve (k : Nat) : frobGammaW (k % 12) = frobGammaW k := by
  rw [frobGammaW, Nat.mod_mod, frobGammaW]

/-- Row 1 is ξ^((p−1)/6). -/
theorem frobGammaW_one :
    powFuel Fp2.mul Fp2.one ⟨Fp.one, Fp.one⟩ 384 ((Config.p - 1) / 6) = frobGammaW 1 := by
  decide +kernel

theorem frobGammaW_succ (k : Nat) : frobGammaW (k + 1) = (frobGammaW k).conj.mul (frobGammaW 1) := by
  have hrows : ∀ j < 12, frobGammaW (j + 1) = (frobGammaW j).conj.mul (frobGammaW 1) := by decide +kernel
  have h := hrows (k % 12) (Nat.mod_lt k (by decide))
  rwa [← frobGammaW_mod_twelve (_ + 1), Nat.mod_add_mod, frobGammaW_mod_twelve, frobGammaW_mod_twelve] at h

theorem frobGamma1_eq_sqr (k : Nat) : frobGamma1 k = (frobGammaW k).sqr := by
  have hrows : ∀ j < 12, frobGamma1 j = (frobGammaW j).sqr := by decide +kernel
  have h := hrows (k % 12) (Nat.mod_lt k (by decide))
  rwa [← frobGamma1_mod_six, Nat.mod_mod_of_dvd k (by decide), frobGamma1_mod_six, frobGammaW_mod_twelve] at h

theorem frobGamma2_eq_sqr (k : Nat) : frobGamma2 k = (frobGamma1 k).sqr := by
  have hrows : ∀ j < 6, frobGamma2 j = (frobGamma1 j).sqr := by decide +kernel
  have h := hrows (k % 6) (Nat.mod_lt k (by decide))
  rwa [frobGamma2_mod_six, frobGamma1_mod_six] at h

/-- W1 is a primitive cube root of 1. -/
theorem frobW1_cube_root : frobW1 * frobW1 + frobW1 + Fp.one = Fp.zero := by decide +kernel

theorem Fp.readIn_frobW1 {K : Type} [CommRing K] [CharP K Config.p] :
    frobW1.readIn K ^ 2 + frobW1.readIn K + 1 = 0 := by
  simpa [sq] using congrArg (Fp.readIn K) frobW1_cube_root

theorem Fp2.frob_mod_of_even {n : Nat} (h : 2 ∣ n) (x : Fp2) (k : Nat) : x.frob (k % n) = x.frob k := by
  rw [Fp2.frob, Nat.mod_mod_of_dvd k h, Fp2.frob]

theorem Fp6.frob_eq (x : Fp6) (k : Nat) :
    x.frob k = ⟨x.c0.frob k, (x.c1.frob k).mul (frobGamma1 k), (x.c2.frob k).mul (frobGamma2 k)⟩ := by
  simp only [Fp6.frob, Fp2.frob_mod_of_even (by decide : 2 ∣ 6), frobGamma1_mod_six, frobGamma2_mod_six]

theorem Fp6.frob_mod_twelve (x : Fp6) (k : Nat) : x.frob (k % 12) = x.frob k := by
  rw [Fp6.frob, Nat.mod_mod_of_dvd k (by decide), Fp6.frob]

theorem Fp12.frob_eq (x : Fp12) (k : Nat) : x.frob k = ⟨x.c0.frob k, (x.c1.frob k).scale (frobGammaW k)⟩ := by
  simp only [Fp12.frob, Fp6.frob_mod_twelve, frobGammaW_mod_twelve]

/-! ### FROB is the Frobenius map of the ring -/

section PrimeField

variable {K : Type} [Field K] [CharP K Config.p] [Fact Config.p.Prime]

theorem Fp.frobenius_readIn (k : Nat) (x : Fp) : iterateFrobenius K Config.p k (x.readIn K) = x.readIn K := by
  rw [iterateFrobenius_def, Fp.readIn, ← map_pow, ZMod.pow_card_pow]

theorem Fp.readIn_inv (x : Fp) : x.inv.readIn K = (x.readIn K)⁻¹ := by
  have hpow : x.inv.readIn K = x.readIn K ^ (Config.p - 2) := by
    rw [Fp.readIn, Fp.inv, Fp.toZMod_pow _ (Nat.sub_lt Config.p_pos Nat.two_pos), map_pow, Fp.readIn]
  by_cases hx : x.readIn K = 0
  · rw [hpow, hx, inv_zero, zero_pow (by decide +kernel)]
  · refine eq_inv_of_mul_eq_one_left (mul_right_cancel₀ hx ?_)
    have hp : Config.p = Config.p - 2 + 1 + 1 := by decide +kernel
    rw [hpow, ← pow_succ, ← pow_succ, ← hp, one_mul,
      ← iterateFrobenius_one_apply, Fp.frobenius_readIn]

end PrimeField

namespace TowerIn

section Frobenius

variable {K : Type} [Field K] [CharP K Config.p] [Fact Config.p.Prime] (T : TowerIn K)

theorem frobenius_u (k : Nat) : iterateFrobenius K Config.p k T.u = (-1) ^ k * T.u := by
  have hone : T.u ^ Config.p = -T.u := by
    have hp := p_mod_four
    rw [← Nat.div_add_mod Config.p 2, pow_add, pow_mul, T.u_sq, Odd.neg_one_pow (by rw [Nat.odd_iff]; omega),
      show Config.p % 2 = 1 by omega, pow_one, neg_one_mul]
  induction k with
  | zero => simp
  | succ k ih =>
    rw [Nat.add_comm k 1, iterateFrobenius_add_apply, ih, map_mul, map_pow, map_neg, map_one, iterateFrobenius_one,
      frobenius_def, hone]
    ring

theorem frobenius_read2 (k : Nat) (x : Fp2) : iterateFrobenius K Config.p k (T.read2 x) = T.read2 (x.frob k) := by
  rw [read2, map_add, map_mul, Fp.frobenius_readIn, Fp.frobenius_readIn, T.frobenius_u, Fp2.frob]
  split
  · next h => rw [Even.neg_one_pow (Nat.even_iff.2 h), one_mul, read2]
  · next h =>
    rw [Odd.neg_one_pow (Nat.odd_iff.2 (Nat.mod_two_ne_zero.1 h)), read2_conj]
    ring

theorem frobenius_w (k : Nat) : iterateFrobenius K Config.p k T.w = T.read2 (frobGammaW k) * T.w := by
  have hone : T.w ^ Config.p = T.read2 (frobGammaW 1) * T.w := by
    have hexp : Config.p = 6 * ((Config.p - 1) / 6) + 1 := by decide +kernel
    have hlt : (Config.p - 1) / 6 < 2 ^ 384 := by decide +kernel
    have hpow := powFuel_eq_pow (x := ⟨Fp.one, Fp.one⟩) T.read2_one T.read2_mul hlt
    rw [frobGammaW_one, ← T.w_pow_six, ← pow_mul] at hpow
    rw [hpow, ← pow_succ, ← hexp]
  induction k with
  | zero => simp [frobGammaW]
  | succ k ih =>
    rw [Nat.add_comm k 1, iterateFrobenius_add_apply, ih, map_mul, T.frobenius_read2, iterateFrobenius_one,
      frobenius_def, hone, Nat.add_comm 1 k, frobGammaW_succ k, read2_mul, Fp2.frob, if_neg Nat.one_ne_zero]
    ring

theorem frobenius_v (k : Nat) : iterateFrobenius K Config.p k T.v = T.read2 (frobGamma1 k) * T.v := by
  rw [← T.w_sq, map_pow, T.frobenius_w, frobGamma1_eq_sqr, read2_sqr, mul_pow]

theorem frobenius_read6 (k : Nat) (x : Fp6) : iterateFrobenius K Config.p k (T.read6 x) = T.read6 (x.frob k) := by
  simp only [read6, map_add, map_mul, map_pow, T.frobenius_read2, T.frobenius_v, Fp6.frob_eq, frobGamma2_eq_sqr,
    read2_mul, read2_sqr]
  ring

theorem frobenius_read12 (k : Nat) (x : Fp12) :
    iterateFrobenius K Config.p k (T.read12 x) = T.read12 (x.frob k) := by
  simp only [read12, map_add, map_mul, T.frobenius_read6, T.frobenius_w, Fp12.frob_eq, read6_scale]
  ring

end Frobenius

/-! ### The readings are faithful -/

section Conjugates

variable {K : Type} [Field K]

/-- Where c is a conjugate of a, it is a's inverse once the norm a·c is divided out. -/
theorem conj_mul_inv_norm {a c : K} (h : c = 0 → a = 0) : c * (a * c)⁻¹ = a⁻¹ := by
  by_cases hc : c = 0
  · rw [hc, h hc, zero_mul, inv_zero]
  · rw [mul_inv_rev, mul_inv_cancel_left₀ hc]

variable [CharP K Config.p]

theorem ofNat_ne_zero {n : Nat} [n.AtLeastTwo] (h : ¬ Config.p ∣ n) : (OfNat.ofNat n : K) ≠ 0 := by
  rwa [← Nat.cast_ofNat, Ne, CharP.cast_eq_zero_iff K Config.p]

/-- An element and its conjugate determine the two coordinates. -/
theorem coords_of_two_conjugates {a b a' b' t : K} (ht : t ≠ 0) (h : a + b * t = a' + b' * t)
    (hF : a - b * t = a' - b' * t) : a = a' ∧ b = b' := by
  have h2 : (2 : K) ≠ 0 := ofNat_ne_zero (by decide +kernel)
  exact ⟨mul_left_cancel₀ h2 (by linear_combination h + hF),
    mul_left_cancel₀ (mul_ne_zero h2 ht) (by linear_combination h - hF)⟩

/-- An element and its two conjugates determine the three coordinates: a discrete Fourier transform with the root ω. -/
theorem coords_of_three_conjugates {a b c a' b' c' t ω : K} (hω : ω ^ 2 + ω + 1 = 0) (ht : t ≠ 0)
    (h : a + b * t + c * t ^ 2 = a' + b' * t + c' * t ^ 2)
    (hF : a + ω * b * t + ω ^ 2 * c * t ^ 2 = a' + ω * b' * t + ω ^ 2 * c' * t ^ 2)
    (hG : a + ω ^ 2 * b * t + ω * c * t ^ 2 = a' + ω ^ 2 * b' * t + ω * c' * t ^ 2) : a = a' ∧ b = b' ∧ c = c' := by
  have h3 : (3 : K) ≠ 0 := ofNat_ne_zero (by decide +kernel)
  refine ⟨mul_left_cancel₀ h3 ?_, mul_left_cancel₀ (mul_ne_zero h3 ht) ?_,
    mul_left_cancel₀ (mul_ne_zero h3 (pow_ne_zero 2 ht)) ?_⟩
  · linear_combination h + hF + hG - ((b - b') * t + (c - c') * t ^ 2) * hω
  · linear_combination h + ω ^ 2 * hF + ω * hG -
      (a - a' + 2 * (ω - 1) * (b - b') * t + (ω ^ 2 - ω + 1) * (c - c') * t ^ 2) * hω
  · linear_combination h + ω * hF + ω ^ 2 * hG -
      (a - a' + (ω ^ 2 - ω + 1) * (b - b') * t + 2 * (ω - 1) * (c - c') * t ^ 2) * hω

end Conjugates

section Nonzero

variable {K : Type} [Field K] (T : TowerIn K)

theorem u_ne_zero : T.u ≠ 0 := by
  intro h
  simpa [h] using T.u_sq

variable [CharP K Config.p]

theorem w_ne_zero : T.w ≠ 0 := by
  intro h
  have hv := T.v_cube
  rw [← T.w_sq, h] at hv
  exact ofNat_ne_zero (K := K) (n := 2) (by decide +kernel) (by linear_combination (T.u - 1) * hv + T.u_sq)

theorem v_ne_zero : T.v ≠ 0 := T.w_sq ▸ pow_ne_zero 2 T.w_ne_zero

end Nonzero

section Faithful

variable {K : Type} [Field K] [CharP K Config.p] [Fact Config.p.Prime] (T : TowerIn K)

/-- The conjugate over Fp. -/
theorem frobenius_one_read2 (x : Fp2) :
    iterateFrobenius K Config.p 1 (T.read2 x) = x.c0.readIn K - x.c1.readIn K * T.u := by
  rw [T.frobenius_read2, ← read2_conj]
  rfl

/-- The first conjugate over Fp2: W1 is the cube root of 1 that v is multiplied by. -/
theorem frobenius_two_read6 (x : Fp6) :
    iterateFrobenius K Config.p 2 (T.read6 x) =
      T.read2 x.c0 + frobW1.readIn K * T.read2 x.c1 * T.v + frobW1.readIn K ^ 2 * T.read2 x.c2 * T.v ^ 2 := by
  have hv : iterateFrobenius K Config.p 2 T.v = frobW1.readIn K * T.v := by
    rw [T.frobenius_v]
    simp [read2, frobGamma1]
  simp only [read6, map_add, map_mul, map_pow, T.frobenius_read2, hv, Fp2.frob, Nat.mod_self, if_true]
  ring

/-- The second conjugate over Fp2. -/
theorem frobenius_four_read6 (x : Fp6) :
    iterateFrobenius K Config.p 4 (T.read6 x) =
      T.read2 x.c0 + frobW1.readIn K ^ 2 * T.read2 x.c1 * T.v + frobW1.readIn K * T.read2 x.c2 * T.v ^ 2 := by
  have hω := Fp.readIn_frobW1 (K := K)
  have hv : iterateFrobenius K Config.p 4 T.v = frobW1.readIn K ^ 2 * T.v := by
    have hZ : frobZ1 = frobW1 * frobW1 := by decide +kernel
    rw [T.frobenius_v]
    simp [read2, frobGamma1, hZ, sq]
  simp only [read6, map_add, map_mul, map_pow, T.frobenius_read2, hv, Fp2.frob, Nat.reduceMod, if_true]
  linear_combination (frobW1.readIn K * (frobW1.readIn K - 1) * T.read2 x.c2 * T.v ^ 2) * hω

/-- The conjugate over Fp6. -/
theorem frobenius_six_read12 (x : Fp12) :
    iterateFrobenius K Config.p 6 (T.read12 x) = T.read6 x.c0 - T.read6 x.c1 * T.w := by
  have hv : iterateFrobenius K Config.p 6 T.v = T.v := by
    rw [T.frobenius_v]
    simp [frobGamma1]
  have hw : iterateFrobenius K Config.p 6 T.w = -T.w := by
    rw [T.frobenius_w]
    simp [read2, frobGammaW, frobM1]
  simp only [read12, read6, map_add, map_mul, map_pow, T.frobenius_read2, hv, hw, Fp2.frob, Nat.reduceMod, if_true]
  ring

theorem read2_injective : Function.Injective T.read2 := by
  intro x y h
  have hF := congrArg (iterateFrobenius K Config.p 1) h
  rw [frobenius_one_read2, frobenius_one_read2] at hF
  obtain ⟨h0, h1⟩ := coords_of_two_conjugates T.u_ne_zero h hF
  cases x
  cases y
  rw [Fp2.mk.injEq]
  exact ⟨Fp.readIn_injective K h0, Fp.readIn_injective K h1⟩

theorem read6_injective : Function.Injective T.read6 := by
  intro x y h
  have hF := congrArg (iterateFrobenius K Config.p 2) h
  have hG := congrArg (iterateFrobenius K Config.p 4) h
  rw [frobenius_two_read6, frobenius_two_read6] at hF
  rw [frobenius_four_read6, frobenius_four_read6] at hG
  obtain ⟨h0, h1, h2⟩ := coords_of_three_conjugates Fp.readIn_frobW1 T.v_ne_zero h hF hG
  cases x
  cases y
  rw [Fp6.mk.injEq]
  exact ⟨T.read2_injective h0, T.read2_injective h1, T.read2_injective h2⟩

theorem read12_injective : Function.Injective T.read12 := by
  intro x y h
  have hF := congrArg (iterateFrobenius K Config.p 6) h
  rw [frobenius_six_read12, frobenius_six_read12] at hF
  obtain ⟨h0, h1⟩ := coords_of_two_conjugates T.w_ne_zero h hF
  cases x
  cases y
  rw [Fp12.mk.injEq]
  exact ⟨T.read6_injective h0, T.read6_injective h1⟩

/-! ### INV is the inverse of the field -/

theorem read2_inv (x : Fp2) : T.read2 x.inv = (T.read2 x)⁻¹ := by
  have hnorm : (x.c0 * x.c0 + x.c1 * x.c1).readIn K = T.read2 x * T.read2 x.conj := by
    rw [read2_conj, read2, Fp.readIn_add, Fp.readIn_mul, Fp.readIn_mul]
    linear_combination x.c1.readIn K ^ 2 * T.u_sq
  rw [Fp2.inv, read2_scale, Fp.readIn_inv, hnorm]
  refine conj_mul_inv_norm fun h => ?_
  rwa [read2_conj, ← frobenius_one_read2, map_eq_zero] at h

theorem read6_cofactor (x : Fp6) :
    T.read6 x.cofactor =
      iterateFrobenius K Config.p 2 (T.read6 x) * iterateFrobenius K Config.p 4 (T.read6 x) := by
  have hω := Fp.readIn_frobW1 (K := K)
  rw [frobenius_two_read6, frobenius_four_read6]
  generalize frobW1.readIn K = ω at *
  obtain ⟨a, b, c⟩ := x
  simp only [read6, Fp6.cofactor, read2_sub, read2_mul, read2_sqr, read2_mulXi]
  linear_combination (-(T.read2 a * T.read2 b * T.v + T.read2 a * T.read2 c * T.v ^ 2 +
    (ω - 1) * (T.read2 b ^ 2 * T.v ^ 2 + T.read2 c ^ 2 * T.v ^ 4) +
    (ω ^ 2 - ω + 1) * T.read2 b * T.read2 c * T.v ^ 3)) * hω

theorem read6_inv (x : Fp6) : T.read6 x.inv = (T.read6 x)⁻¹ := by
  rw [Fp6.inv_eq, read6_scale, read2_inv, read2_norm]
  refine conj_mul_inv_norm fun h => ?_
  rwa [read6_cofactor, mul_eq_zero, map_eq_zero, map_eq_zero, or_self] at h

theorem read12_inv (x : Fp12) : T.read12 x.inv = (T.read12 x)⁻¹ := by
  have hconj := T.frobenius_six_read12 x
  have hnorm : T.read6 (x.c0.sqr.sub x.c1.sqr.mulV) = T.read12 x * iterateFrobenius K Config.p 6 (T.read12 x) := by
    rw [hconj, read12, read6_sub, read6_mulV, read6_sqr, read6_sqr]
    linear_combination (T.read6 x.c1) ^ 2 * T.w_sq
  rw [← conj_mul_inv_norm (map_eq_zero (iterateFrobenius K Config.p 6)).1, ← hnorm, ← read6_inv, hconj]
  simp only [Fp12.inv, read12, read6_mul, read6_neg]
  ring

end Faithful

section Transfer

variable {K α : Type} [Field K] {ι : α → K} (hinj : Function.Injective ι) {mul : α → α → α} {one zero : α}

include hinj

/-- What is read as the inverse of 0 is 0. -/
theorem eq_zero_of_read (hzero : ι zero = 0) {y : α} (hy : ι y = (ι zero)⁻¹) : y = zero := by
  apply hinj
  rw [hy, hzero, inv_zero]

variable (hone : ι one = 1) (hmul : ∀ x y, ι (mul x y) = ι x * ι y)

include hone hmul

/-- What is read as the inverse of x ≠ 0 multiplies with x to one. -/
theorem mul_eq_one_of_read (hzero : ι zero = 0) {x y : α} (hy : ι y = (ι x)⁻¹) (hx : x ≠ zero) : mul x y = one := by
  apply hinj
  rw [hmul, hy, hone, mul_inv_cancel₀ fun h => hx (hinj (h.trans hzero.symm))]

omit hinj in
theorem read_iterate_mul (x : α) (n : Nat) : ι ((mul x)^[n] one) = ι x ^ n := by
  induction n with
  | zero => rw [Function.iterate_zero_apply, hone, pow_zero]
  | succ n ih => rw [Function.iterate_succ_apply', hmul, ih, pow_succ']

/-- What is read as the k-th iterate of the Frobenius map at x is the power x^(p^k). -/
theorem eq_iterate_mul_of_read [CharP K Config.p] [Fact Config.p.Prime] {x y : α} {k : Nat}
    (hy : iterateFrobenius K Config.p k (ι x) = ι y) : y = (mul x)^[Config.p ^ k] one := by
  apply hinj
  rw [← hy, iterateFrobenius_def, read_iterate_mul hone hmul]

end Transfer

end TowerIn

end Sys2Proof.Machine

namespace Sys2Proof.Proofs

open Sys2Proof.Machine TowerIn

/-- Settles O39: INV of each level is read as the inverse of the field (`read2_inv`, `read6_inv`, `read12_inv`), because the
norm of x is x times conjugates of x, which are powers of x and so nonzero with it. -/
theorem towerInversesMultiplyToOne : Obligations.TowerInversesMultiplyToOne := by
  have : Fact Config.p.Prime := ⟨p_prime⟩
  obtain ⟨T⟩ := exists_towerIn (AlgebraicClosure (ZMod Config.p))
  exact ⟨fun x => mul_eq_one_of_read T.read2_injective T.read2_one T.read2_mul T.read2_zero (T.read2_inv x),
    eq_zero_of_read T.read2_injective T.read2_zero (T.read2_inv _),
    fun x => mul_eq_one_of_read T.read6_injective T.read6_one T.read6_mul T.read6_zero (T.read6_inv x),
    eq_zero_of_read T.read6_injective T.read6_zero (T.read6_inv _),
    fun x => mul_eq_one_of_read T.read12_injective T.read12_one T.read12_mul T.read12_zero (T.read12_inv x),
    eq_zero_of_read T.read12_injective T.read12_zero (T.read12_inv _)⟩

/-- Settles O40: FROB of each level is read as the k-th iterate of y ↦ y^p (`frobenius_read2`, `frobenius_read6`,
`frobenius_read12`), because the tables hold what that map multiplies u, v and w by. -/
theorem frobeniusIsThePthPower : Obligations.FrobeniusIsThePthPower := by
  have : Fact Config.p.Prime := ⟨p_prime⟩
  obtain ⟨T⟩ := exists_towerIn (AlgebraicClosure (ZMod Config.p))
  exact ⟨fun x k => eq_iterate_mul_of_read T.read2_injective T.read2_one T.read2_mul (T.frobenius_read2 k x),
    fun x k => eq_iterate_mul_of_read T.read6_injective T.read6_one T.read6_mul (T.frobenius_read6 k x),
    fun x k => eq_iterate_mul_of_read T.read12_injective T.read12_one T.read12_mul (T.frobenius_read12 k x)⟩

end Sys2Proof.Proofs
end

section
/-! PROOFS. The group commands on values: with the operands in place, each command of G1 and G2 ends as its rule says
(O41 to O45). -/

namespace Sys2Proof.Machine

/-! ### Values that read back

A scalar reads back below its bound only, and a list at its own length only, so that their layouts are not `Lawful`. -/

/-- The layout reads the value `x` back from its words. -/
structure Layout.ReadsBack {α : Type} (L : Layout α) (x : α) : Prop where
  length : (L.words x).length = L.extent
  read : ∀ s o idx base, slotsHold s base (L.words x) = true → L.read s o idx base = .ok x

theorem Lawful.readsBack {α : Type} {L : Layout α} (hL : Lawful L) (x : α) : L.ReadsBack x :=
  ⟨hL.length x, fun s o idx base => hL.read s o idx base x⟩

theorem readsBack_scalar {bound k : Nat} (h256 : k < 2 ^ 256) (hk : k < bound) : (layoutScalar bound).ReadsBack k :=
  ⟨rfl, fun _ _ _ _ h => readScalar_of_hold h h256 hk⟩

theorem r_lt_two_pow_255 : Config.r < 2 ^ 255 := by decide +kernel

theorem readsBack_scr {k : Nat} (hk : k < Config.r) : layoutSCr.ReadsBack k :=
  readsBack_scalar (hk.trans (r_lt_two_pow_255.trans (by decide))) hk

theorem readListFrom_of_readsBack {α : Type} {L : Layout α} {s : State} {o : Operand} {idx base : Nat} {xs : List α}
    (hL : ∀ x ∈ xs, L.ReadsBack x) (h : slotsHold s base (xs.flatMap L.words) = true) :
    readListFrom L s o xs.length idx base = .ok xs := by
  induction xs generalizing idx base with
  | nil => rfl
  | cons x xs ih =>
    obtain ⟨hx, hxs⟩ := List.forall_mem_cons.1 hL
    simp only [List.flatMap_cons, slotsHold_append, Bool.and_eq_true, hx.length] at h
    simp only [List.length_cons, readListFrom, hx.read s o idx base h.1, ih hxs h.2]

theorem Layout.ReadsBack.list {α : Type} {L : Layout α} {xs : List α} {n : Nat} (hn : xs.length = n)
    (h : ∀ x ∈ xs, L.ReadsBack x) : (layoutList n L).ReadsBack xs := by
  subst hn
  refine ⟨?_, fun _ _ _ _ => readListFrom_of_readsBack h⟩
  show (xs.flatMap L.words).length = xs.length * L.extent
  rw [List.length_flatMap, List.map_congr_left fun x hx => (h x hx).length, List.map_const', List.sum_replicate,
    smul_eq_mul]

section Shapes

variable {α β γ : Type} {LD : Layout γ} {LA : Layout α} {LB : Layout β} {i : Instr} {opc : BitVec 8} {s : State}
  {d a b : SlotAddr} {x : α} {y : β} {v : γ}

theorem Layout.ReadsBack.read_of_holds (hA : LA.ReadsBack x) (ha : holds LA s a x = true) (o : Operand) (idx : Nat) :
    LA.read s o idx a.toNat = .ok x :=
  hA.read _ _ _ _ (Bool.and_eq_true _ _ ▸ ha).2

theorem completes_unary_of_readsBack (hA : LA.ReadsBack x) {f : α → γ} (hi : exec i s = unary opc LD LA f d a s)
    (hd : fits s d LD.extent = true) (ha : holds LA s a x = true) (hf : f x = v) :
    completes i s (writing LD d v) := by
  subst hf
  rw [completes, hi, unary, commandDA, checkExtents_ok (by simp [hd, holds_fits ha]), hA.read_of_holds ha]
  rfl

theorem completes_binary_of_readsBack (hA : LA.ReadsBack x) (hB : LB.ReadsBack y) {f : α → β → γ}
    (hi : exec i s = binary opc LD LA LB f d a b s) (hd : fits s d LD.extent = true) (ha : holds LA s a x = true)
    (hb : holds LB s b y = true) (hf : f x y = v) : completes i s (writing LD d v) := by
  subst hf
  rw [completes, hi, binary, commandDAB, checkExtents_ok (by simp [hd, holds_fits ha, holds_fits hb]),
    hA.read_of_holds ha, hB.read_of_holds hb]
  rfl

end Shapes

theorem listCommand_of_count_le {s : State} (h : s.countLatch.toNat ≤ s.maxCount) (opc : BitVec 8)
    (run : Host.Outcome State Fault Refusal) : listCommand opc s run = run := by
  obtain ⟨-, hrun⟩ | ⟨hlt, -⟩ := listCommand_cases opc s run
  · exact hrun
  · omega

/-! ### The tests of points -/

namespace Curve

variable {F : Type} (C : Curve F) [DecidableEq F]

/-- ONCURVE (R148) as one equation. -/
theorem onCurve_eq_decide (P : Point F) :
    C.onCurve P = decide (P.z = C.zero ∨ C.sqr P.y = C.add (C.mul (C.sqr P.x) P.x)
      (C.mul C.bn (C.mul (C.sqr (C.sqr P.z)) (C.sqr P.z)))) :=
  (Bool.decide_or _ _).symm

/-- EQ (R135) as one proposition. -/
theorem equal_eq_decide (P Q : Point F) :
    C.equal P Q = decide ((P.z = C.zero ∧ Q.z = C.zero) ∨ (P.z ≠ C.zero ∧ Q.z ≠ C.zero ∧
      C.mul P.x (C.sqr Q.z) = C.mul Q.x (C.sqr P.z) ∧
      C.mul P.y (C.mul (C.sqr Q.z) Q.z) = C.mul Q.y (C.mul (C.sqr P.z) P.z))) := by
  unfold equal
  split
  · next hid =>
    refine decide_eq_decide.2 ⟨.inl, fun h => h.resolve_right fun hne => ?_⟩
    exact hid.elim hne.1 hne.2.1
  · next hid =>
    obtain ⟨hP, hQ⟩ := not_or.1 hid
    rw [← Bool.decide_and]
    exact decide_eq_decide.2 (by simp [hP, hQ])

end Curve

/-! ### The commands that are not one of the shapes alone -/

section Groups

variable {F : Type} {G : Group F} [DecidableEq F] (hG : Lawful G.layout) {i : Instr} {s : State} {d a b : SlotAddr}
  {P Q : Point F} {Ps : List (Point F)} {ks : List Nat}
include hG

theorem groupAddm_outcomes (hi : exec i s = groupAddm G (opcode i) d a b s) (hd : fits s d G.layout.extent = true)
    (ha : holds G.layout s a P = true) (hb : holds G.layout s b Q = true) :
    (Q.z = G.curve.zero ∨ Q.z = G.curve.one → completes i s (writing G.layout d (G.curve.maddF P Q))) ∧
    (Q.z ≠ G.curve.zero → Q.z ≠ G.curve.one →
      failsWith i s ⟨.notAffine, .b, b + BitVec.ofNat 16 (2 * G.coordinate), 0⟩) := by
  have hslot : BitVec.ofNat 16 (b.toNat + 2 * G.coordinate) = b + BitVec.ofNat 16 (2 * G.coordinate) := by
    rw [BitVec.ofNat_add, BitVec.ofNat_toNat, BitVec.setWidth_eq]
  rw [groupAddm, commandDAB_of_holds hG hG hd ha hb, hslot] at hi
  constructor
  · intro haffine
    rw [completes, hi, if_pos haffine]
    rfl
  · intro hzero hone
    rw [failsWith, hi, if_neg (not_or.2 ⟨hzero, hone⟩)]
    rfl

theorem groupCheck_outcomes (hi : exec i s = groupCheck G (opcode i) a s) (ha : holds G.layout s a P = true) :
    (G.curve.onCurve P = true → G.curve.inSubgroup P = true → completes i s (flagging true)) ∧
    (G.curve.onCurve P = false → failsWith i s ⟨.offCurve, .a, a, 0⟩) ∧
    (G.curve.onCurve P = true → G.curve.inSubgroup P = false → failsWith i s ⟨.wrongSubgroup, .a, a, 0⟩) := by
  rw [groupCheck, commandA_of_holds hG ha] at hi
  refine ⟨fun hcurve hsub => ?_, fun hcurve => ?_, fun hcurve hsub => ?_⟩
  · rw [completes, hi, hcurve, hsub]
    rfl
  · rw [failsWith, hi, hcurve]
    rfl
  · rw [failsWith, hi, hcurve, hsub]
    rfl

theorem completes_groupAffb {opc : BitVec 8} (hi : exec i s = groupAffb G opc d a s)
    (hlen : s.countLatch.toNat = Ps.length) (hmax : Ps.length ≤ s.maxCount)
    (ha : holds (layoutList Ps.length G.layout) s a Ps = true) (hd : fits s d (Ps.length * G.layout.extent) = true) :
    completes i s (writing (layoutList Ps.length G.layout) d (Ps.map G.curve.affine)) := by
  rw [groupAffb, listCommand_of_count_le (hlen ▸ hmax), hlen] at hi
  exact completes_unary_of_readsBack (.list rfl fun P _ => hG.readsBack P) hi hd ha rfl

theorem completes_groupMsm {opc : BitVec 8} (hi : exec i s = groupMsm G opc d a b s)
    (hlen : s.countLatch.toNat = Ps.length) (hmax : Ps.length ≤ s.maxCount)
    (ha : holds (layoutList Ps.length G.layout) s a Ps = true) (hd : fits s d G.layout.extent = true)
    (hks : ks.length = Ps.length) (hr : ∀ k ∈ ks, k < Config.r)
    (hb : holds (layoutList ks.length layoutSCr) s b ks = true) :
    completes i s (writing G.layout d (G.curve.msm (Ps.zip ks))) := by
  rw [groupMsm, listCommand_of_count_le (hlen ▸ hmax), hlen] at hi
  rw [hks] at hb
  exact completes_binary_of_readsBack (.list rfl fun P _ => hG.readsBack P)
    (.list hks fun k hk => readsBack_scr (hr k hk)) (f := fun points scalars => G.curve.msm (points.zip scalars))
    hi hd ha hb rfl

end Groups

end Sys2Proof.Machine

namespace Sys2Proof.Proofs

open Sys2Proof.Machine

/-- Settles O41: each command comes down to its function of the operands' values; a scalar reads back below its
bound. -/
theorem groupCommandsComplete : Obligations.GroupCommandsComplete :=
  ⟨fun _ _ _ _ _ _ _ hd ha =>
    ⟨completes_unary lawful_g1 rfl hd ha rfl, completes_unary lawful_g1 rfl hd ha rfl,
      completes_unary lawful_g1 rfl hd ha rfl,
      fun hb => ⟨completes_binary lawful_g1 lawful_g1 rfl hd ha hb rfl,
        completes_binary lawful_g1 lawful_g1 rfl hd ha hb rfl⟩,
      fun hk hb => ⟨completes_binary_of_readsBack (lawful_g1.readsBack _) (readsBack_scalar hk hk) rfl hd ha hb rfl,
        fun hr => completes_binary_of_readsBack (lawful_g1.readsBack _) (readsBack_scr hr) rfl hd ha hb rfl⟩⟩,
    fun _ _ _ _ _ _ _ hd ha =>
    ⟨completes_unary lawful_g2 rfl hd ha rfl, completes_unary lawful_g2 rfl hd ha rfl,
      completes_unary lawful_g2 rfl hd ha rfl,
      fun hb => ⟨completes_binary lawful_g2 lawful_g2 rfl hd ha hb rfl,
        completes_binary lawful_g2 lawful_g2 rfl hd ha hb rfl⟩,
      fun hk hb => ⟨completes_binary_of_readsBack (lawful_g2.readsBack _) (readsBack_scalar hk hk) rfl hd ha hb rfl,
        fun hr => completes_binary_of_readsBack (lawful_g2.readsBack _) (readsBack_scr hr) rfl hd ha hb rfl⟩⟩⟩

/-- Settles O42: the command comes down to its body, whose test is the statement's case split. -/
theorem mixedAdditionNeedsAnAffinePoint : Obligations.MixedAdditionNeedsAnAffinePoint :=
  ⟨fun _ _ _ _ _ _ hd ha hb => groupAddm_outcomes (G := groupG1) lawful_g1 rfl hd ha hb,
    fun _ _ _ _ _ _ hd ha hb => groupAddm_outcomes (G := groupG2) lawful_g2 rfl hd ha hb⟩

/-- Settles O43: each test of the model is the decision of its equation (`onCurve_eq_decide`, `equal_eq_decide`). -/
theorem groupPredicatesSetFlag : Obligations.GroupPredicatesSetFlag :=
  ⟨fun _ _ _ P Q ha => ⟨completes_test1 lawful_g1 rfl ha rfl, completes_test1 lawful_g1 rfl ha rfl,
      completes_test1 lawful_g1 rfl ha (curveG1.onCurve_eq_decide P), completes_test1 lawful_g1 rfl ha rfl,
      fun hb => completes_test2 lawful_g1 lawful_g1 rfl ha hb (curveG1.equal_eq_decide P Q)⟩,
    fun _ _ _ P Q ha => ⟨completes_test1 lawful_g2 rfl ha rfl, completes_test1 lawful_g2 rfl ha rfl,
      completes_test1 lawful_g2 rfl ha (curveG2.onCurve_eq_decide P), completes_test1 lawful_g2 rfl ha rfl,
      fun hb => completes_test2 lawful_g2 lawful_g2 rfl ha hb (curveG2.equal_eq_decide P Q)⟩⟩

/-- Settles O44: CHECK tests the curve first, then the subgroup. -/
theorem checkReportsCurveThenSubgroup : Obligations.CheckReportsCurveThenSubgroup :=
  ⟨fun _ _ _ ha => groupCheck_outcomes (G := groupG1) lawful_g1 rfl ha,
    fun _ _ _ ha => groupCheck_outcomes (G := groupG2) lawful_g2 rfl ha⟩

/-- Settles O45: COUNT is the lists' length, so that each list reads back (`Layout.ReadsBack.list`). -/
theorem groupListCommandsComplete : Obligations.GroupListCommandsComplete :=
  ⟨fun _ _ _ _ _ _ hlen hmax ha =>
      ⟨completes_groupAffb (G := groupG1) lawful_g1 rfl hlen hmax ha,
        completes_groupMsm (G := groupG1) lawful_g1 rfl hlen hmax ha⟩,
    fun _ _ _ _ _ _ hlen hmax ha =>
      ⟨completes_groupAffb (G := groupG2) lawful_g2 rfl hlen hmax ha,
        completes_groupMsm (G := groupG2) lawful_g2 rfl hlen hmax ha⟩⟩

end Sys2Proof.Proofs
end

section
/-! PROOFS. The Jacobian formulas read in a ring: the constant and the mixed forms (O46), the curve equation (O47), and
the affine form (O49). -/

namespace Sys2Proof.Machine

/-! ### The loop of R144 -/

theorem lt_two_pow_of_bitlen_le {k n : Nat} (h : bitlen k ≤ n) : k < 2 ^ n := by
  unfold bitlen at h
  split at h
  · next hk => exact hk ▸ Nat.two_pow_pos n
  · next hk => exact (Nat.log2_lt hk).1 h

theorem bitlen_le_of_lt_two_pow {k n : Nat} (h : k < 2 ^ n) : bitlen k ≤ n := by
  unfold bitlen
  split
  · exact Nat.zero_le n
  · next hk => exact (Nat.log2_lt hk).2 h

/-! ### The chord -/

/-- ADDF's X and Y obey the curve equation where (u₁, s₁) and (u₂, s₂) do: modulo the first point's equation, the sum's is
a multiple of the difference of the two. -/
theorem chord_equation {K : Type} [CommRing K] {u₁ u₂ s₁ s₂ c : K} (h₁ : s₁ ^ 2 = u₁ ^ 3 + c)
    (h₂ : s₂ ^ 2 = u₂ ^ 3 + c) :
    (8 * ((s₂ - s₁) * ((u₂ - u₁) ^ 2 * (2 * u₁ + u₂) - (s₂ - s₁) ^ 2) - s₁ * (u₂ - u₁) ^ 3)) ^ 2 =
      (4 * ((s₂ - s₁) ^ 2 - (u₂ - u₁) ^ 2 * (u₁ + u₂))) ^ 3 + c * (2 * (u₂ - u₁)) ^ 6 := by
  linear_combination (64 * (u₂ - u₁) ^ 6) * h₁ +
    (64 * ((u₂ - u₁) ^ 2 * (2 * u₁ + u₂) - (s₂ - s₁) ^ 2) * (u₂ - u₁) ^ 3) * (h₁ - h₂)

namespace Curve

variable {F : Type} {C : Curve F} [DecidableEq F]

/-- The leading zeros of the scalar double the identity, which DBLF copies (R145). -/
theorem mulLoop_identity {P : Point F} {k n : Nat} (h : bitlen k ≤ n) : C.mulLoop P k n C.identity = C.mulF P k := by
  induction n, h using Nat.le_induction with
  | base => rfl
  | succ n hn ih =>
    rw [mulLoop, Nat.testBit_lt_two_pow (lt_two_pow_of_bitlen_le hn), dblF_identity]
    exact ih

theorem mulCtF_eq_mulF (P : Point F) {k : Nat} (hk : k < Config.r) : C.mulCtF P k = C.mulF P k :=
  mulLoop_identity (bitlen_le_of_lt_two_pow (hk.trans r_lt_two_pow_255))

/-- What DBLF and ADDF keep, the loop keeps. -/
theorem mulF_induction {p : Point F → Prop} (hid : p C.identity) (hdbl : ∀ P, p P → p (C.dblF P))
    (hadd : ∀ P Q, p P → p Q → p (C.addF P Q)) {P : Point F} (hP : p P) (k : Nat) : p (C.mulF P k) := by
  have hloop (n : Nat) (Q : Point F) (hQ : p Q) : p (C.mulLoop P k n Q) := by
    induction n generalizing Q with
    | zero => exact hQ
    | succ n ih =>
      rw [mulLoop]
      refine ih _ ?_
      split
      · exact hadd _ _ (hdbl Q hQ) hP
      · exact hdbl Q hQ
  exact hloop _ _ hid

/-- The branches of ADDF before its formula (R137). -/
theorem addF_of_same_x {P Q : Point F} (hP : P.z ≠ C.zero) (hQ : Q.z ≠ C.zero)
    (h : C.mul P.x (C.sqr Q.z) = C.mul Q.x (C.sqr P.z)) : C.addF P Q = C.dblF P ∨ C.addF P Q = C.identity := by
  simp only [addF, if_neg hP, if_neg hQ, if_pos h]
  split
  · exact .inl rfl
  · exact .inr rfl

/-- MADDF and ADDF both copy P where Q is the identity and P is not. -/
theorem maddF_of_identity {P Q : Point F} (hQ : Q.z = C.zero) (hP : P.z ≠ C.zero) : C.maddF P Q = C.addF P Q := by
  rw [maddF, addF, if_pos hQ, if_neg hP, if_pos hQ]

namespace ReadIn

section Ring

variable {K : Type} [CommRing K] {ι : F → K} (R : C.ReadIn ι)

include R

omit [DecidableEq F] in
theorem mul_one_right (x : F) : C.mul x C.one = x := R.injective (by rw [R.mul, R.one, mul_one])

omit [DecidableEq F] in
theorem neg (x : F) : ι (C.neg x) = -ι x := by
  rw [Curve.neg, R.sub, R.zero, zero_sub]

/-! ### MADDF is ADDF -/

theorem maddF_of_affine [Nontrivial K] {P Q : Point F} (hQ : Q.z = C.one) : C.maddF P Q = C.addF P Q := by
  have hone : C.one ≠ C.zero := fun h => one_ne_zero (R.one.symm.trans ((congrArg ι h).trans R.zero))
  have hsqr : C.sqr C.one = C.one := R.mul_one_right C.one
  unfold maddF addF
  by_cases hP : P.z = C.zero
  · simp only [hQ, hone, hP, if_true, if_false]
  · simp only [hQ, hone, hP, hsqr, R.mul_one_right, if_false]
    split
    · rfl
    · refine R.point_ext ?_ ?_ ?_ <;> simp only [R.add, R.sub, R.mul, R.sqr, R.dbl, R.one] <;> ring

/-! ### The curve equation -/

theorem onCurve_iff {P : Point F} :
    C.onCurve P = true ↔ P.z = C.zero ∨ ι P.y ^ 2 = ι P.x ^ 3 + ι C.bn * ι P.z ^ 6 := by
  rw [onCurve_eq_decide, decide_eq_true_iff, ← R.injective.eq_iff (a := C.sqr P.y)]
  simp only [R.add, R.mul, R.sqr, ← pow_succ, ← pow_mul, ← pow_add, Nat.reduceAdd, Nat.reduceMul]

theorem onCurve_eq {P : Point F} (h : C.onCurve P = true) (hz : P.z ≠ C.zero) :
    ι P.y ^ 2 = ι P.x ^ 3 + ι C.bn * ι P.z ^ 6 :=
  (R.onCurve_iff.1 h).resolve_left hz

theorem onCurve_identity : C.onCurve C.identity = true := R.onCurve_iff.2 (.inl rfl)

theorem onCurve_negPoint {P : Point F} (h : C.onCurve P = true) : C.onCurve (C.negPoint P) = true := by
  rw [R.onCurve_iff] at h ⊢
  rwa [negPoint, R.neg, neg_sq]

/-- The tangent at a point of the curve meets the curve again. -/
theorem onCurve_dblF {P : Point F} (h : C.onCurve P = true) : C.onCurve (C.dblF P) = true := by
  by_cases hz : P.z = C.zero
  · rwa [dblF, if_pos hz]
  · have hP := R.onCurve_eq h hz
    obtain ⟨hx, hy, hz₃⟩ := R.dblF_coords hz
    refine R.onCurve_iff.2 (.inr ?_)
    rw [hx, hy, hz₃]
    linear_combination (64 * ι P.y ^ 6) * hP

/-- The chord through two points of the curve meets the curve again (`chord_equation`). -/
theorem onCurve_addF {P Q : Point F} (hP : C.onCurve P = true) (hQ : C.onCurve Q = true) :
    C.onCurve (C.addF P Q) = true := by
  by_cases hzP : P.z = C.zero
  · rwa [addF, if_pos hzP]
  by_cases hzQ : Q.z = C.zero
  · rwa [addF, if_neg hzP, if_pos hzQ]
  by_cases hx : C.mul P.x (C.sqr Q.z) = C.mul Q.x (C.sqr P.z)
  · obtain hdbl | hid := addF_of_same_x hzP hzQ hx
    · rw [hdbl]
      exact R.onCurve_dblF hP
    · rw [hid]
      exact R.onCurve_identity
  · have hne : ι P.x * ι Q.z ^ 2 ≠ ι Q.x * ι P.z ^ 2 := by
      rwa [← R.sqr, ← R.sqr, ← R.mul, ← R.mul, R.injective.ne_iff]
    obtain ⟨hx₃, hy₃, hz₃⟩ := R.addF_coords hzP hzQ rfl rfl rfl rfl hne
    have h₁ : (ι P.y * ι Q.z ^ 3) ^ 2 = (ι P.x * ι Q.z ^ 2) ^ 3 + ι C.bn * (ι P.z * ι Q.z) ^ 6 := by
      linear_combination ι Q.z ^ 6 * R.onCurve_eq hP hzP
    have h₂ : (ι Q.y * ι P.z ^ 3) ^ 2 = (ι Q.x * ι P.z ^ 2) ^ 3 + ι C.bn * (ι P.z * ι Q.z) ^ 6 := by
      linear_combination ι P.z ^ 6 * R.onCurve_eq hQ hzQ
    refine R.onCurve_iff.2 (.inr ?_)
    rw [hx₃, hy₃, hz₃]
    generalize ι P.x * ι Q.z ^ 2 = u₁ at *
    generalize ι Q.x * ι P.z ^ 2 = u₂ at *
    generalize ι P.y * ι Q.z ^ 3 = s₁ at *
    generalize ι Q.y * ι P.z ^ 3 = s₂ at *
    linear_combination chord_equation h₁ h₂

theorem onCurve_mulF {P : Point F} (h : C.onCurve P = true) (k : Nat) : C.onCurve (C.mulF P k) = true :=
  mulF_induction (p := fun Q => C.onCurve Q = true) R.onCurve_identity (fun _ => R.onCurve_dblF)
    (fun _ _ => R.onCurve_addF) h k

theorem formulas_onCurve {P Q : Point F} (hP : C.onCurve P = true) (hQ : C.onCurve Q = true) (k : Nat) :
    C.onCurve (C.dblF P) = true ∧ C.onCurve (C.addF P Q) = true ∧ C.onCurve (C.negPoint P) = true ∧
      C.onCurve (C.mulF P k) = true :=
  ⟨R.onCurve_dblF hP, R.onCurve_addF hP hQ, R.onCurve_negPoint hP, R.onCurve_mulF hP k⟩

end Ring

/-! ### The affine form -/

section Field

variable {K : Type} [Field K] {ι : F → K} (R : C.ReadIn ι)

include R

/-- Off the identity, equality of group elements (R135) is that of the affine coordinates. -/
theorem equal_iff {P Q : Point F} (hP : P.z ≠ C.zero) (hQ : Q.z ≠ C.zero) :
    C.equal P Q = true ↔
      ι P.x / ι P.z ^ 2 = ι Q.x / ι Q.z ^ 2 ∧ ι P.y / ι P.z ^ 3 = ι Q.y / ι Q.z ^ 3 := by
  have hιP := R.ne_zero hP
  have hιQ := R.ne_zero hQ
  rw [equal_eq_decide, decide_eq_true_iff, ← R.injective.eq_iff (a := C.mul P.x _),
    ← R.injective.eq_iff (a := C.mul P.y _), div_eq_div_iff (pow_ne_zero 2 hιP) (pow_ne_zero 2 hιQ),
    div_eq_div_iff (pow_ne_zero 3 hιP) (pow_ne_zero 3 hιQ)]
  simp [R.mul, R.sqr, hP, hQ, pow_succ]

theorem affine_coords (hinv : ∀ x, ι (C.inv x) = (ι x)⁻¹) {P : Point F} (hz : P.z ≠ C.zero) :
    ι (C.affine P).x = ι P.x / ι P.z ^ 2 ∧ ι (C.affine P).y = ι P.y / ι P.z ^ 3 ∧ (C.affine P).z = C.one := by
  simp only [affine, if_neg hz, R.mul, R.sqr, hinv, and_true]
  constructor <;> ring

theorem equal_affine (hinv : ∀ x, ι (C.inv x) = (ι x)⁻¹) {P : Point F} (hz : P.z ≠ C.zero) :
    (C.affine P).z = C.one ∧ C.equal P (C.affine P) = true := by
  obtain ⟨hx, hy, hone⟩ := R.affine_coords hinv hz
  have hz' : (C.affine P).z ≠ C.zero := fun h => one_ne_zero (α := K) (by rw [← R.one, ← hone, h, R.zero])
  refine ⟨hone, (R.equal_iff hz hz').2 ?_⟩
  rw [hx, hy, hone, R.one]
  simp

theorem affine_eq_of_equal (hinv : ∀ x, ι (C.inv x) = (ι x)⁻¹) {P Q : Point F} (hP : P.z ≠ C.zero)
    (hQ : Q.z ≠ C.zero) (h : C.equal P Q = true) : C.affine P = C.affine Q := by
  obtain ⟨hxP, hyP, hzP⟩ := R.affine_coords hinv hP
  obtain ⟨hxQ, hyQ, hzQ⟩ := R.affine_coords hinv hQ
  obtain ⟨hx, hy⟩ := (R.equal_iff hP hQ).1 h
  exact R.point_ext (by rw [hxP, hxQ, hx]) (by rw [hyP, hyQ, hy]) (by rw [hzP, hzQ])

end Field

end ReadIn

end Curve

/-! ### Both curves in one field -/

section Ring

variable {K : Type} [CommRing K] [CharP K Config.p]

theorem curveG1_readIn_of_charP : curveG1.ReadIn (Fp.readIn K) where
  injective := Fp.readIn_injective K
  zero := Fp.readIn_zero K
  one := Fp.readIn_one K
  add := Fp.readIn_add K
  sub := Fp.readIn_sub K
  mul := Fp.readIn_mul K

end Ring

theorem curveG2_readIn {K : Type} [Field K] [CharP K Config.p] [Fact Config.p.Prime] (T : TowerIn K) :
    curveG2.ReadIn T.read2 where
  injective := T.read2_injective
  zero := T.read2_zero
  one := T.read2_one
  add := T.read2_add
  sub := T.read2_sub
  mul := T.read2_mul

end Sys2Proof.Machine

namespace Sys2Proof.Proofs

open Sys2Proof.Machine

/-- Settles O46: the leading zeros of the scalar leave the identity as it is (`mulLoop_identity`), and with Z = one
ADDF's formula is MADDF's in the ring that reads the coordinates. -/
theorem constantFormAndMixedFormAgree : Obligations.ConstantFormAndMixedFormAgree := by
  have : Fact Config.p.Prime := ⟨p_prime⟩
  obtain ⟨T⟩ := exists_towerIn (AlgebraicClosure (ZMod Config.p))
  exact ⟨fun P _ => Curve.mulCtF_eq_mulF P, fun P _ => Curve.mulCtF_eq_mulF P,
    fun _ _ h => h.elim curveG1_readIn.maddF_of_affine fun ⟨hQ, hP⟩ => Curve.maddF_of_identity hQ hP,
    fun _ _ h => h.elim (curveG2_readIn T).maddF_of_affine fun ⟨hQ, hP⟩ => Curve.maddF_of_identity hQ hP⟩

/-- Settles O47: each formula keeps the curve equation as a ring identity (`onCurve_dblF`, `onCurve_addF`), and the loop
keeps what the formulas keep. -/
theorem groupFormulasStayOnTheCurve : Obligations.GroupFormulasStayOnTheCurve := by
  have : Fact Config.p.Prime := ⟨p_prime⟩
  obtain ⟨T⟩ := exists_towerIn (AlgebraicClosure (ZMod Config.p))
  exact ⟨fun _ _ k hP hQ => curveG1_readIn.formulas_onCurve hP hQ k,
    fun _ _ k hP hQ => (curveG2_readIn T).formulas_onCurve hP hQ k⟩

/-- Settles O49: AFFINE gives x/z² and y/z³ over Z = one (`affine_coords`), and R135 compares these quotients
(`equal_iff`). -/
theorem affineFormIsUnique : Obligations.AffineFormIsUnique := by
  have : Fact Config.p.Prime := ⟨p_prime⟩
  obtain ⟨T⟩ := exists_towerIn (AlgebraicClosure (ZMod Config.p))
  have R₁ := curveG1_readIn_of_charP (K := AlgebraicClosure (ZMod Config.p))
  have R₂ := curveG2_readIn T
  exact ⟨fun _ => R₁.equal_affine Fp.readIn_inv, fun _ _ => R₁.affine_eq_of_equal Fp.readIn_inv,
    fun _ => R₂.equal_affine T.read2_inv, fun _ _ => R₂.affine_eq_of_equal T.read2_inv⟩

end Sys2Proof.Proofs
end

section
/-! PROOFS. The pairing engine: its commands on values (O50, O51), and the Miller value as a product over the pairs (O52). -/

namespace Sys2Proof.Machine

/-! ### Products of Fp12 values -/

namespace TowerIn

variable {K : Type} [Field K] [CharP K Config.p] [Fact Config.p.Prime] (T : TowerIn K)

/-- The conjugate over Fp6 is the power p^6, so that it keeps products. -/
theorem read12_conj (x : Fp12) : T.read12 x.conj = iterateFrobenius K Config.p 6 (T.read12 x) := by
  rw [frobenius_six_read12, read12, Fp12.conj, read6_neg, neg_mul, sub_eq_add_neg]

end TowerIn

/-- What the readings of the tower in every field say of two Fp12 values holds of the values. -/
theorem Fp12.eq_of_read {x y : Fp12}
    (h : ∀ {K : Type} [Field K] [CharP K Config.p] [Fact Config.p.Prime] (T : TowerIn K), T.read12 x = T.read12 y) :
    x = y := by
  have : Fact Config.p.Prime := ⟨p_prime⟩
  obtain ⟨T⟩ := exists_towerIn (AlgebraicClosure (ZMod Config.p))
  exact T.read12_injective (h T)

theorem Fp12.one_mul (x : Fp12) : Fp12.one.mul x = x :=
  eq_of_read fun T => by simp only [T.read12_mul, T.read12_one]; ring

theorem Fp12.mul_right_comm (x y z : Fp12) : (x.mul y).mul z = (x.mul z).mul y :=
  eq_of_read fun T => by simp only [T.read12_mul]; ring

theorem Fp12.mul_assoc (x y z : Fp12) : (x.mul y).mul z = x.mul (y.mul z) :=
  eq_of_read fun T => by simp only [T.read12_mul]; ring

theorem Fp12.sqr_mul (x y : Fp12) : (x.mul y).sqr = x.sqr.mul y.sqr :=
  eq_of_read fun T => by simp only [Fp12.sqr, T.read12_mul, mul_mul_mul_comm]

theorem Fp12.conj_mul (x y : Fp12) : (x.mul y).conj = x.conj.mul y.conj :=
  eq_of_read fun T => by simp only [T.read12_conj, T.read12_mul, map_mul]

/-! ### The Miller loop over two lists of pairs -/

theorem foldLines_append (ms ms' : List Prepared) (j : Nat) (f : Fp12) :
    foldLines (ms ++ ms') j f = foldLines ms' j (foldLines ms j f) :=
  List.foldl_append

theorem ell_mul_left (f g : Fp12) (c : Line) (px py : Fp) : ell (f.mul g) c px py = (ell f c px py).mul g :=
  Fp12.mul_right_comm _ _ _

theorem ell_mul_right (f g : Fp12) (c : Line) (px py : Fp) : ell (f.mul g) c px py = f.mul (ell g c px py) :=
  Fp12.mul_assoc _ _ _

theorem foldLines_mul_left (ms : List Prepared) (j : Nat) (f g : Fp12) :
    foldLines ms j (f.mul g) = (foldLines ms j f).mul g :=
  List.foldl_hom (fun f : Fp12 => f.mul g) fun _ _ => ell_mul_left _ _ _ _ _

theorem foldLines_mul_right (ms : List Prepared) (j : Nat) (f g : Fp12) :
    foldLines ms j (f.mul g) = f.mul (foldLines ms j g) :=
  List.foldl_hom f.mul fun _ _ => ell_mul_right _ _ _ _ _

/-- Each pair's line goes to its own factor. -/
theorem foldLines_append_mul (ms ms' : List Prepared) (j : Nat) (f g : Fp12) :
    foldLines (ms ++ ms') j (f.mul g) = (foldLines ms j f).mul (foldLines ms' j g) := by
  rw [foldLines_append, foldLines_mul_left, foldLines_mul_right]

theorem millerLoop_append_mul (ms ms' : List Prepared) (n j : Nat) (f g : Fp12) :
    millerLoop (ms ++ ms') n j (f.mul g) = (millerLoop ms n j f).mul (millerLoop ms' n j g) := by
  induction n generalizing j f g with
  | zero => rfl
  | succ n ih =>
    have hsqr : (if j > 0 then (f.mul g).sqr else f.mul g) =
        (if j > 0 then f.sqr else f).mul (if j > 0 then g.sqr else g) := by
      split
      · exact Fp12.sqr_mul f g
      · rfl
    simp only [millerLoop, hsqr, foldLines_append_mul, ih]
    split <;> rfl

/-! ### The pairs that are skipped -/

theorem prepareAll_append {Ps Ps' : List (Point Fp)} {Qs Qs' : List (Point Fp2)} (h : Ps.length = Qs.length) :
    prepareAll (Ps ++ Ps') (Qs ++ Qs') = prepareAll Ps Qs ++ prepareAll Ps' Qs' := by
  rw [prepareAll, List.zip_append h, List.filterMap_append, ← prepareAll, ← prepareAll]

theorem prepare_identity {P : Point Fp} {Q : Point Fp2} (h : P.z = Fp.zero ∨ Q.z = Fp2.zero) : prepare P Q = none :=
  if_pos (Bool.or_eq_true _ _ ▸ h.imp decide_eq_true decide_eq_true)

theorem prepareAll_identity {P : Point Fp} {Q : Point Fp2} (h : P.z = Fp.zero ∨ Q.z = Fp2.zero) :
    prepareAll [P] [Q] = [] :=
  List.filterMap_cons_none (prepare_identity h)

theorem miller_append {Ps Ps' : List (Point Fp)} {Qs Qs' : List (Point Fp2)} (h : Ps.length = Qs.length) :
    miller (Ps ++ Ps') (Qs ++ Qs') = (miller Ps Qs).mul (miller Ps' Qs') := by
  have hloop := millerLoop_append_mul (prepareAll Ps Qs) (prepareAll Ps' Qs') 63 0 Fp12.one Fp12.one
  rw [Fp12.mul_one_one] at hloop
  rw [miller, prepareAll_append h, hloop, Fp12.conj_mul, ← miller, ← miller]

theorem miller_identity {P : Point Fp} {Q : Point Fp2} (h : P.z = Fp.zero ∨ Q.z = Fp2.zero) :
    miller [P] [Q] = Fp12.one := by
  rw [miller, prepareAll_identity h, millerLoop_nil_one, Fp12.conj_one]

/-! ### The number of lines -/

/-- One triple per bit of the walk, and one more where the bit is 1 (R156). -/
theorem lineWalk_length (qx qy : Fp2) (n : Nat) (t : Point Fp2) :
    (lineWalk qx qy n t).length = n + (List.range n).countP Config.seedAbs.testBit := by
  induction n generalizing t with
  | zero => rfl
  | succ n ih =>
    rw [List.range_succ, List.countP_append, List.countP_singleton, lineWalk]
    cases Config.seedAbs.testBit n
    · simp only [Bool.false_eq_true, if_false, List.length_cons, ih]
      omega
    · simp only [if_true, List.length_cons, ih]
      omega

theorem lineCoefficients_length (qx qy : Fp2) : (lineCoefficients qx qy).length = 68 := by
  have hbits : (List.range 63).countP Config.seedAbs.testBit = 5 := by decide +kernel
  rw [lineCoefficients, lineWalk_length, hbits]

/-! ### The final exponentiation of 0 -/

@[simp] theorem Fp12.mul_zero_zero : Fp12.zero.mul Fp12.zero = Fp12.zero := by decide +kernel
@[simp] theorem Fp12.csqr_zero : Fp12.zero.csqr = Fp12.zero := by decide +kernel
@[simp] theorem Fp12.conj_zero : Fp12.zero.conj = Fp12.zero := by decide +kernel
@[simp] theorem Fp12.inv_zero : Fp12.zero.inv = Fp12.zero := eq_of_read fun T => by simp [T.read12_inv]

@[simp] theorem Fp12.frob_zero (k : Nat) : Fp12.zero.frob k = Fp12.zero := by
  have h : ∀ j < 12, Fp12.zero.frob j = Fp12.zero := by decide +kernel
  have := h (k % 12) (Nat.mod_lt _ (by decide))
  rwa [Fp12.frob, Nat.mod_mod] at this

@[simp] theorem cexpLoop_zero (n : Nat) (started : Bool) : cexpLoop Fp12.zero n Fp12.zero started = Fp12.zero := by
  induction n generalizing started with
  | zero => rfl
  | succ n ih => simp [cexpLoop, ih]

/-- The first bit of the loop that is 1. -/
theorem cexpLoop_start {n : Nat} (h : Config.seedAbs.testBit n = true) (f t : Fp12) :
    cexpLoop f (n + 1) t false = cexpLoop f n (t.mul f) true := by
  simp [cexpLoop, h]

/-- The top bit of |x| is 1: the first turn of the loop multiplies by 0, and the others keep it. -/
@[simp] theorem cexp_zero : cexp Fp12.zero = Fp12.zero := by
  have htop : Config.seedAbs.testBit 63 = true := by decide +kernel
  rw [cexp, cexpLoop_start htop, Fp12.one_mul, cexpLoop_zero, Fp12.conj_zero]

theorem finalExp_zero : finalExp Fp12.zero = Fp12.zero := by simp [finalExp, easyPart, hardPart]

/-! ### The list commands on pairs -/

section Shapes

variable {α β γ : Type} {LD : Layout γ} {LA : Layout α} {LB : Layout β} {i : Instr} {opc : BitVec 8} {s : State}
  {d a b : SlotAddr} {x : α} {y : β} {v : γ}

theorem completes_test2_of_readsBack (hA : LA.ReadsBack x) (hB : LB.ReadsBack y) {g : α → β → Bool} {flag : Bool}
    (hi : exec i s = test2 opc LA LB g a b s) (ha : holds LA s a x = true) (hb : holds LB s b y = true)
    (hg : g x y = flag) : completes i s (flagging flag) := by
  subst hg
  rw [completes, hi, test2, commandAB, checkExtents_ok (by simp [holds_fits ha, holds_fits hb]),
    hA.read_of_holds ha, hB.read_of_holds hb]
  rfl

end Shapes

section PairLists

variable {i : Instr} {opc : BitVec 8} {s : State} {d a b : SlotAddr} {Ps : List (Point Fp)} {Qs : List (Point Fp2)}
  {v : Fp12} {flag : Bool} (hlen : s.countLatch.toNat = Ps.length) (hQs : Qs.length = Ps.length) (hmax : Ps.length ≤ s.maxCount)
  (ha : holds (layoutList Ps.length layoutG1) s a Ps = true) (hb : holds (layoutList Qs.length layoutG2) s b Qs = true)
include hlen hQs hmax ha hb

theorem completes_pairListBinary {f : List (Point Fp) → List (Point Fp2) → Fp12}
    (hi : exec i s = listCommand opc s (binary opc layoutFp12 (layoutList s.countLatch.toNat layoutG1)
      (layoutList s.countLatch.toNat layoutG2) f d a b s))
    (hd : fits s d 12 = true) (hf : f Ps Qs = v) : completes i s (writing layoutFp12 d v) := by
  rw [listCommand_of_count_le (hlen ▸ hmax), hlen] at hi
  exact completes_binary_of_readsBack (.list rfl fun P _ => lawful_g1.readsBack P)
    (.list hQs fun Q _ => lawful_g2.readsBack Q) hi hd ha (hQs ▸ hb) hf

theorem completes_pairListTest {g : List (Point Fp) → List (Point Fp2) → Bool}
    (hi : exec i s = listCommand opc s (test2 opc (layoutList s.countLatch.toNat layoutG1)
      (layoutList s.countLatch.toNat layoutG2) g a b s))
    (hg : g Ps Qs = flag) : completes i s (flagging flag) := by
  rw [listCommand_of_count_le (hlen ▸ hmax), hlen] at hi
  exact completes_test2_of_readsBack (.list rfl fun P _ => lawful_g1.readsBack P)
    (.list hQs fun Q _ => lawful_g2.readsBack Q) hi ha (hQs ▸ hb) hg

end PairLists

end Sys2Proof.Machine

namespace Sys2Proof.Proofs

open Sys2Proof.Machine

/-- Settles O50: COUNT is the length of both lists, so that each reads back (`completes_pairListBinary`,
`completes_pairListTest`). -/
theorem pairingListCommandsComplete : Obligations.PairingListCommandsComplete :=
  fun _ _ _ _ _ _ hlen hQs hmax ha hb => ⟨completes_pairListTest hlen hQs hmax ha hb rfl rfl,
    fun hd => ⟨completes_pairListBinary hlen hQs hmax ha hb rfl hd rfl,
      completes_pairListBinary hlen hQs hmax ha hb rfl hd rfl⟩⟩

/-- Settles O51: both commands come down to their functions of the operand's value; each step of the chain maps 0 to 0
(`finalExp_zero`), CEXP's loop through its first bit (`cexp_zero`). -/
theorem exponentiationCommandsComplete : Obligations.ExponentiationCommandsComplete :=
  ⟨fun _ _ _ _ hd ha => ⟨completes_unary lawful_fp12 rfl hd ha rfl, completes_unary lawful_fp12 rfl hd ha rfl⟩,
    finalExp_zero, cexp_one⟩

/-- Settles O52: products of Fp12 commute, so that the loop keeps the accumulators of the two parts as factors
(`millerLoop_append_mul`), and CONJ keeps products. -/
theorem millerIsAProductOverPairs : Obligations.MillerIsAProductOverPairs :=
  ⟨fun _ _ _ _ => miller_append, fun _ _ => miller_identity, lineCoefficients_length⟩

end Sys2Proof.Proofs
end

section
/-! PROOFS. The scalar recoder: WNAF and FROMWNAF on values (O53), and the recoding of a scalar that is a digit (O54). -/

namespace Sys2Proof.Machine

/-! ### Digit bytes read back (R54) -/

theorem bytesOf_ofBytes (bs : List Byte) : bytesOf bs.length (ofBytes bs) = bs := by
  induction bs with
  | nil => rfl
  | cons b bs ih =>
    have hlow : BitVec.ofNat 8 (b.toNat + 256 * ofBytes bs) = b :=
      BitVec.eq_of_toNat_eq (by rw [BitVec.toNat_ofNat]; omega)
    have hhigh : (b.toNat + 256 * ofBytes bs) / 256 = ofBytes bs := by omega
    rw [List.length_cons, ofBytes, bytesOf, hlow, hhigh, ih]

/-- One slot holds 48 digit bytes whole. -/
theorem bytesOf_packed_slot {bs : List Byte} (h : slotBytes ≤ bs.length) :
    bytesOf slotBytes (BitVec.ofNat 384 (ofBytes (bs.take slotBytes))).toNat = bs.take slotBytes := by
  have hbytes := bytesOf_ofBytes (bs.take slotBytes)
  rw [List.length_take_of_le h] at hbytes
  rw [BitVec.toNat_ofNat, Nat.mod_eq_of_lt, hbytes]
  rw [ofBytes_take]
  exact (Nat.mod_lt _ (by decide)).trans_eq (by decide +kernel)

theorem packDigits_length (n : Nat) (bs : List Byte) : (packDigits n bs).length = n := by
  induction n generalizing bs with
  | zero => rfl
  | succ n ih => rw [packDigits, List.length_cons, ih]

theorem flatMap_bytesOf_packDigits {n : Nat} {bs : List Byte} (h : bs.length = slotBytes * n) :
    ((packDigits n bs).flatMap fun w => bytesOf slotBytes w.toNat) = bs := by
  induction n generalizing bs with
  | zero => exact (List.length_eq_zero_iff.1 h).symm
  | succ n ih =>
    rw [Nat.mul_succ] at h
    have hrest : (bs.drop slotBytes).length = slotBytes * n := by rw [List.length_drop, h, Nat.add_sub_cancel]
    rw [packDigits, List.flatMap_cons, bytesOf_packed_slot (h ▸ Nat.le_add_left _ _), ih hrest, List.take_append_drop]

/-- A run of digit bytes reads back at its own length only, so that its layout is not `Lawful`. -/
theorem readsBack_wn {bytes : List Byte} (h : bytes.length = 288) : layoutWN.ReadsBack bytes := by
  refine ⟨packDigits_length 6 bytes, fun s o idx base hhold => ?_⟩
  have hraw : readRaw s 6 base = .ok (packDigits 6 bytes) := packDigits_length 6 bytes ▸ readRaw_of_hold hhold
  simp only [layoutWN, hraw]
  exact congrArg Except.ok (flatMap_bytesOf_packDigits h)

/-! ### The commands -/

/-- `commandDA_of_holds` for a value that reads back. -/
theorem commandDA_of_readsBack {α : Type} {LA : Layout α} {x : α} (hA : LA.ReadsBack x) {opc : BitVec 8} {n : Nat}
    {d a : SlotAddr} {s : State} {body : α → Except Stop Effect} (hd : fits s d n = true) (ha : holds LA s a x = true) :
    commandDA opc n LA d a s body = finish opc s (body x) := by
  rw [commandDA, checkExtents_ok (by simp [hd, holds_fits ha]), hA.read_of_holds ha]
  rfl

/-- R165: a scalar in place at a width of 2 to 8. -/
theorem completes_wnaf {s : State} {d a : SlotAddr} {w : BitVec 8} {k : Nat} (hlow : 2 ≤ w.toNat) (hhigh : w.toNat ≤ 8)
    (hk : k < 2 ^ 256) (hd : fits s d 6 = true) (ha : holds layoutSC s a k = true) :
    completes (.wnaf d a w) s
      { writes := place d.toNat (layoutWN.words (digitBytes (wnafDigitsOf w.toNat k))),
        result := BitVec.ofNat 64 (wnafDigitsOf w.toNat k).length } := by
  have hwidth : ¬ (w.toNat < 2 ∨ w.toNat > 8) := by omega
  exact (if_neg hwidth).trans (commandDA_of_readsBack (LA := layoutSC) (readsBack_scalar hk hk) hd ha)

/-- R166: the body's test is the statement's case split. -/
theorem fromwnaf_outcomes {s : State} {d a : SlotAddr} {bytes : List Byte} (hlen : bytes.length = 288)
    (hd : fits s d 1 = true) (ha : holds layoutWN s a bytes = true) :
    (0 ≤ digitSum bytes → digitSum bytes < 2 ^ 256 →
      completes (.fromwnaf d a) s (writing layoutSC d (digitSum bytes).toNat)) ∧
    (digitSum bytes < 0 ∨ 2 ^ 256 ≤ digitSum bytes → failsWith (.fromwnaf d a) s ⟨.outOfField, .a, a, 0⟩) := by
  have hexec : exec (.fromwnaf d a) s = _ :=
    commandDA_of_readsBack (readsBack_wn hlen) hd ha
  constructor
  · intro hnonneg hlt
    rw [completes, hexec, if_neg (by omega)]
    rfl
  · intro hout
    rw [failsWith, hexec, if_pos hout, outOfField, BitVec.ofNat_toNat, BitVec.setWidth_eq]
    rfl

/-! ### A scalar that is its own digit (R165) -/

theorem wnafDigit_of_odd_of_lt {w k : Nat} (hodd : k % 2 = 1) (hlt : k < 2 ^ (w - 1)) : wnafDigit w k = k := by
  have hmod : k % 2 ^ w = k :=
    Nat.mod_eq_of_lt (hlt.trans_le (Nat.pow_le_pow_right (by decide) (Nat.sub_le w 1)))
  rw [wnafDigit, if_pos hodd, hmod]
  exact if_neg (Nat.not_le.2 hlt)

theorem wnafLoop_of_zero (w fuel : Nat) : wnafLoop w fuel 0 = [] := by
  cases fuel with
  | zero => rfl
  | succ fuel => rw [wnafLoop, if_pos rfl]

/-- The loop of R165 takes an odd scalar below half the window whole, and stops. -/
theorem wnafLoop_of_odd_of_lt {w k : Nat} (hodd : k % 2 = 1) (hlt : k < 2 ^ (w - 1)) (fuel : Nat) :
    wnafLoop w (fuel + 1) k = [(k : Int)] := by
  have hpos : k ≠ 0 := by omega
  simp only [wnafLoop, if_neg hpos, wnafDigit_of_odd_of_lt hodd hlt, Int.sub_self, Int.toNat_zero, Nat.zero_div,
    wnafLoop_of_zero]

theorem wnafDigitsOf_of_odd_of_lt {w k : Nat} (hodd : k % 2 = 1) (hlt : k < 2 ^ (w - 1)) :
    wnafDigitsOf w k = [(k : Int)] :=
  wnafLoop_of_odd_of_lt hodd hlt 287

end Sys2Proof.Machine

namespace Sys2Proof.Proofs

open Sys2Proof.Machine

/-- Settles O53: a scalar and a run of 288 digit bytes read back (`readsBack_scalar`, `readsBack_wn`), so that each command
comes down to its body. -/
theorem scalarCommandsComplete : Obligations.ScalarCommandsComplete :=
  ⟨fun _ _ _ _ _ => completes_wnaf, fun _ _ _ _ => fromwnaf_outcomes⟩

/-- Refutes O54 by its clause on the last digit: at width 3 the recoding of 3 is the single digit 3
(`wnafDigitsOf_of_odd_of_lt`). The loop of R165 ends on whatever odd value below 2^(w−1) is left; only at width 2 is that
always 1. -/
theorem not_wnafRoundTrips : ¬ Obligations.WnafRoundTrips := by
  intro h
  obtain ⟨-, -, hlast, -⟩ := h 3 3 (by decide) (by decide) (by decide)
  have hdigits : wnafDigitsOf 3 3 = [3] := wnafDigitsOf_of_odd_of_lt (by decide) (by decide)
  have hthree : [(3 : Int)].getLast? = some 1 := hdigits ▸ hlast (by decide)
  exact absurd hthree (by decide)

end Sys2Proof.Proofs
end

section
/-! PROOFS. The control commands: NOP (O22), COPY as a memmove of raw slots (O23), and LDC with the words of the ROM
(O24). -/

namespace Sys2Proof.Machine

/-! ### Writing back what memory holds

In canonical memory a write of the value that is there changes nothing, not even the list of cells. -/

theorem Memory.mem_of_read {m : Memory} {a : Nat} {v : Byte} (h : Memory.read m a = some v) : (a, v) ∈ m := by
  induction m with
  | nil => cases h
  | cons c rest ih =>
    obtain ⟨x, w⟩ := c
    unfold Memory.read at h
    split at h
    · next hx =>
      cases h
      exact hx ▸ List.mem_cons_self
    · exact List.mem_cons_of_mem _ (ih h)

theorem Memory.write_of_read {m : Memory} {a : Nat} {v : Byte} (hwf : m.wf) (h : Memory.read m a = some v) :
    Memory.write m a v = m := by
  induction m with
  | nil => cases h
  | cons c rest ih =>
    obtain ⟨x, w⟩ := c
    obtain ⟨hbelow, hrest⟩ := List.pairwise_cons.mp hwf
    unfold Memory.read at h
    split at h
    · next hx =>
      cases h
      simp [Memory.write, hx]
    · have hlt : x < a := hbelow _ (Memory.mem_of_read h)
      rw [Memory.write, if_neg (by omega), if_neg (by omega), ih hrest h]

theorem Memory.length_of_readBytes {m : Memory} {a n : Nat} {bs : List Byte} (h : Memory.readBytes m a n = some bs) :
    bs.length = n := by
  induction n generalizing a bs with
  | zero => cases h; rfl
  | succ n ih =>
    unfold Memory.readBytes at h
    split at h
    · next hrest =>
      cases h
      rw [List.length_cons, ih hrest]
    · cases h

theorem Memory.writeBytes_of_readBytes {m : Memory} {a n : Nat} {bs : List Byte} (hwf : m.wf)
    (h : Memory.readBytes m a n = some bs) : Memory.writeBytes m a bs = m := by
  induction n generalizing a bs with
  | zero => cases h; rfl
  | succ n ih =>
    unfold Memory.readBytes at h
    split at h
    · next hb hrest =>
      cases h
      rw [Memory.writeBytes, Memory.write_of_read hwf hb, ih hrest]
    · cases h

theorem Memory.writeSlot_of_readSlot {m : Memory} {n : Nat} {w : SlotWord} (hwf : m.wf)
    (h : Memory.readSlot m n = some w) : Memory.writeSlot m n w = m := by
  obtain ⟨bs, hbs, rfl⟩ := Option.map_eq_some_iff.mp h
  have hlen := Memory.length_of_readBytes hbs
  have hbytes := bytesOf_packed_slot hlen.ge
  rw [List.take_of_length_le hlen.le] at hbytes
  rw [Memory.writeSlot, hbytes, Memory.writeBytes_of_readBytes hwf hbs]

theorem commit_place_of_slotsHold {s : State} {base : Nat} {ws : List SlotWord} (hwf : s.om.wf)
    (h : slotsHold s base ws = true) : Memory.commit s.om (place base ws) = s.om := by
  induction ws generalizing base with
  | nil => rfl
  | cons w ws ih =>
    simp only [slotsHold, Bool.and_eq_true, decide_eq_true_eq] at h
    obtain ⟨hw, hws⟩ := h
    rw [place, Memory.commit, Memory.writeSlot_of_readSlot hwf hw, ih hws]

/-! ### Slots after a run of staged writes -/

theorem slot_of_slotsHold {s : State} {base : Nat} {ws : List SlotWord} (h : slotsHold s base ws = true) {j : Nat}
    (hj : j < ws.length) : s.slot (base + j) = some ws[j] := by
  induction ws generalizing base j with
  | nil => cases hj
  | cons w ws ih =>
    simp only [slotsHold, Bool.and_eq_true, decide_eq_true_eq] at h
    obtain ⟨hw, hws⟩ := h
    cases j with
    | zero => exact hw
    | succ j => simpa [Nat.add_assoc, Nat.add_comm 1] using ih hws (Nat.lt_of_succ_lt_succ hj)

theorem Memory.readSlot_commit_place_of_lt (m : Memory) {n base : Nat} (ws : List SlotWord) (h : n < base) :
    Memory.readSlot (Memory.commit m (place base ws)) n = Memory.readSlot m n := by
  induction ws generalizing m base with
  | nil => rfl
  | cons w ws ih => rw [place, Memory.commit, ih _ (by omega), Memory.readSlot_writeSlot_other _ _ (by omega)]

theorem Memory.readSlot_commit_place (m : Memory) (base : Nat) {ws : List SlotWord} {j : Nat} (hj : j < ws.length) :
    Memory.readSlot (Memory.commit m (place base ws)) (base + j) = some ws[j] := by
  induction ws generalizing m base j with
  | nil => cases hj
  | cons w ws ih =>
    rw [place, Memory.commit]
    cases j with
    | zero =>
      show Memory.readSlot _ base = some w
      rw [Memory.readSlot_commit_place_of_lt _ _ (Nat.lt_add_one base), Memory.readSlot_writeSlot_same]
    | succ j =>
      simpa [Nat.add_assoc, Nat.add_comm 1] using
        ih (Memory.writeSlot m base w) (base + 1) (Nat.lt_of_succ_lt_succ hj)

/-! ### Words with a reserved field -/

/-- A word that fails a field check of its opcode is RESERVED_FIELD, at a field whose check fails (R73). -/
theorem decode_of_check_fails {w : Word} {i : Instr} (hopc : opcOf w = opcode i) {f : Operand}
    (h : (f, false) ∈ (form i).fieldChecks w) :
    ∃ g, (g, false) ∈ (form i).fieldChecks w ∧ decode w = .error (.reservedField g) := by
  obtain ⟨hall, -⟩ | herr := decode_cases hopc
  · cases hall _ h
  · exact herr

theorem decode_nop_of_ne_zero {w : Word} (hopc : opcOf w = 0) (hw : w ≠ 0) :
    ∃ f, decode w = .error (.reservedField f) := by
  obtain ⟨hall, -⟩ | ⟨f, -, herr⟩ := decode_cases (i := .nop) hopc
  · exact absurd (encode_of_readFrom (j := .nop) rfl hopc.symm hall).2.symm hw
  · exact ⟨f, herr⟩

theorem decode_copy_of_b {w : Word} (hopc : opcOf w = 0x01) (hb : bOf w ≠ 0) :
    decode w = .error (.reservedField .b) := by
  obtain ⟨f, hf, herr⟩ := decode_of_check_fails (i := .copy 0 0 0) (f := .b) hopc
    (by simpa [Form.fieldChecks, form] using hb)
  obtain ⟨rfl, -⟩ : f = .b ∧ bOf w ≠ 0 := by simpa [Form.fieldChecks, Form.auxLegal, form] using hf
  exact herr

theorem decode_ldc_of_a_or_b {w : Word} (hopc : opcOf w = 0x02) (h : aOf w ≠ 0 ∨ bOf w ≠ 0) :
    ∃ f, decode w = .error (.reservedField f) := by
  have hbad : ∃ f, (f, false) ∈ (form (.ldc 0 0)).fieldChecks w := by
    obtain ha | hb := h
    · exact ⟨.a, by simpa [Form.fieldChecks, form] using ha⟩
    · exact ⟨.b, by simpa [Form.fieldChecks, form] using hb⟩
  obtain ⟨f, hf⟩ := hbad
  obtain ⟨g, -, herr⟩ := decode_of_check_fails (i := .ldc 0 0) hopc hf
  exact ⟨g, herr⟩

/-! ### COPY -/

theorem readsBack_raw {n : Nat} {ws : List SlotWord} (hn : ws.length = n) : (layoutRaw n).ReadsBack ws :=
  ⟨hn, fun _ _ _ _ h => hn ▸ readRaw_of_hold h⟩

theorem completes_copy {s : State} {d a : SlotAddr} {k : BitVec 8} {ws : List SlotWord}
    (hlen : ws.length = k.toNat + 1) (hd : fits s d (k.toNat + 1) = true) (ha : fits s a (k.toNat + 1) = true)
    (hws : slotsHold s a.toNat ws = true) : completes (.copy d a k) s { writes := place d.toNat ws } := by
  have hholds : holds (layoutRaw (k.toNat + 1)) s a ws = true := (Bool.and_eq_true _ _).mpr ⟨ha, hws⟩
  exact completes_unary_of_readsBack (LD := layoutRaw (k.toNat + 1)) (readsBack_raw hlen) rfl hd hholds rfl

/-- All source slots are read before the first is written (R170), so that it does not matter how the ranges overlap. -/
theorem slot_after_copy {s : State} {d a : Nat} {ws : List SlotWord} (hws : slotsHold s a ws = true) {j : Nat}
    (hj : j < ws.length) : (s.succeed { writes := place d ws }).slot (d + j) = s.slot (a + j) := by
  rw [slot_of_slotsHold hws hj]
  exact Memory.readSlot_commit_place _ _ hj

/-! ### LDC -/

/-- A list of all ten entries of the ROM (R38) gives each of them at its index. -/
theorem romEntry_of_getElem? {entries : List (List SlotWord)}
    (hrom : entries.map some = (List.range 10).map romEntry) {n : Nat} {ws : List SlotWord}
    (h : entries[n]? = some ws) : romEntry n = some ws := by
  have hn : ((List.range 10).map romEntry)[n]? = some (some ws) := by
    rw [← hrom, List.getElem?_map, h, Option.map_some]
  rw [List.getElem?_map] at hn
  obtain ⟨i, hi, hentry⟩ := Option.map_eq_some_iff.mp hn
  obtain ⟨hlt, rfl⟩ := List.getElem?_eq_some_iff.mp hi
  rwa [List.getElem_range] at hentry

theorem exec_ldc_of_romEntry {i : BitVec 8} {ws : List SlotWord} (h : romEntry i.toNat = some ws) (s : State)
    (d : SlotAddr) :
    exec (.ldc d i) s =
      finish 0x02 s (checkExtents s [(.d, d, ws.length)] >>= fun _ => .ok { writes := place d.toNat ws }) := by
  simp only [exec, execLdc, h]

theorem romEntry_of_ge {n : Nat} (h : 10 ≤ n) : romEntry n = none := by
  unfold romEntry
  split
  case h_11 => rfl
  all_goals omega

end Sys2Proof.Machine

namespace Sys2Proof.Proofs

open Sys2Proof.Machine

/-- Settles O23: the source words read back raw (`readsBack_raw`) and are then written in one run (`slot_after_copy`);
the extent check takes D before A (O18). -/
theorem copyMovesRawSlots : Obligations.CopyMovesRawSlots := by
  refine ⟨fun s d a k ws hlen hd ha hws => ?_, fun s d a k hlt => ?_, fun s d a k hd hlt => ?_,
    fun _ => decode_copy_of_b, decode_encode (i := .copy 10 0 2) rfl⟩
  · have hdone := completes_copy hlen hd ha hws
    refine ⟨hdone, _, hdone, rfl, fun j hj => slot_after_copy hws (hlen ▸ hj), ?_⟩
    rintro hwf rfl
    exact commit_place_of_slotsHold hwf hws
  · exact operandPastTheEndIsAddressRange.1 (.copy d a k) s [] _ ⟨.d, d, 1, k.toNat + 1, .result⟩ rfl rfl rfl nofun
      (by simpa [Use.extent] using hlt)
  · refine operandPastTheEndIsAddressRange.1 (.copy d a k) s [⟨.d, d, 1, k.toNat + 1, .result⟩] []
      ⟨.a, a, 1, k.toNat + 1, .raw⟩ rfl rfl rfl ?_ (by simpa [Use.extent] using hlt)
    simpa [Use.extent, fits] using hd

/-- Settles O24: the words of R38 are those of the model's ROM, by evaluation; the index is looked up before the extent
is checked (`exec_ldc_of_romEntry`). -/
theorem ldcLoadsTheConstants : Obligations.LdcLoadsTheConstants := by
  unfold Obligations.LdcLoadsTheConstants
  intro m one entries
  have hrom : entries.map some = (List.range 10).map romEntry := by decide +kernel
  refine ⟨fun s d i ws hi hfit => ?_, fun s d i hi => ?_, fun s d i ws hi hlt => ?_, fun _ => decode_ldc_of_a_or_b,
    decode_encode (i := .ldc 0 1) rfl⟩
  · rw [completes, exec_ldc_of_romEntry (romEntry_of_getElem? hrom hi), checkExtents_ok (by simpa using hfit)]
    rfl
  · simp only [failsWith, exec, execLdc, romEntry_of_ge hi]
    rfl
  · have hrange : checkExtents s [(.d, d, ws.length)] = .error (.raise ⟨.addressRange, .d, d, 0⟩) := if_pos hlt
    rw [failsWith, exec_ldc_of_romEntry (romEntry_of_getElem? hrom hi), hrange]
    rfl

/-- Settles O22: NOP succeeds with the empty effect, and of the words with its opcode only its encoding passes the field
checks. -/
theorem nopOnlyCompletes : Obligations.NopOnlyCompletes := by
  refine ⟨fun _ => rfl, fun s t _ h => ?_, fun _ => decode_nop_of_ne_zero, rfl⟩
  cases h
  refine ⟨rfl, rfl, rfl, rfl, rfl, fun hsticky => ?_⟩
  simp [statusWord, errFlag, hsticky]

end Sys2Proof.Proofs
end

section
/-! PROOFS. The outcome of a command, error by error: a rejected word (O7), success or one error (O9), the first illegal
source slot (O19), and the codes a command may end with (O21). The last two rest on `exec_runsChecks`: after its count
and its extents a command checks its source slots in the order of `sourcesOf`, and then only its own check can fail. -/

namespace Sys2Proof

/-! ### The first field that fails its check (R175 check 2) -/

/-- The field reported is the first of AUX, D, A, B whose check fails. -/
theorem checkReserved_four {x d a b : Bool} {f : Operand}
    (h : checkReserved [(.none, x), (.d, d), (.a, a), (.b, b)] = .error (.reservedField f)) :
    (f = .none → x = false) ∧ (f = .d → d = false) ∧ (f = .a → a = false) ∧ (f = .b → b = false) ∧
      (f ≠ .none → x = true) ∧ (f = .a ∨ f = .b → d = true) ∧ (f = .b → a = true) := by
  cases x with
  | false => cases h; simp
  | true =>
    cases d with
    | false => cases h; simp
    | true =>
      cases a with
      | false => cases h; simp
      | true =>
        cases b with
        | false => cases h; simp
        | true => cases h

theorem checkReserved_of_decode_error {w : Word} {i : Instr} {f : Operand} (hopc : opcOf w = opcode i)
    (h : decode w = .error (.reservedField f)) :
    checkReserved ((form i).fieldChecks w) = .error (.reservedField f) := by
  obtain ⟨j, -, -, hdecode⟩ := decodesAs_decode hopc
  obtain ⟨hok, -⟩ | ⟨g, -, herr⟩ := checkReserved_cases ((form i).fieldChecks w)
  · rw [hdecode, hok] at h
    cases h
  · rw [hdecode, herr] at h
    cases h
    exact herr

/-- The opcodes with a range of AUX use the field (R73). -/
theorem opcode_of_aux_none {i : Instr} (h : (form i).aux = none) : opcode i ≠ 0x02 ∧ opcode i ≠ 0x80 := by
  cases i <;> simp [form, opcode] at h ⊢

theorem auxLegal_iff (i : Instr) (x : BitVec 8) :
    (form i).auxLegal x = true ↔ ((form i).aux = none → x = 0) ∧ (opcode i = 0x02 → x.toNat < 10) ∧
      (opcode i = 0x80 → 2 ≤ x.toNat ∧ x.toNat ≤ 8) := by
  rw [Form.auxLegal, show (form i).opc = opcode i from rfl]
  split_ifs with haux hldc hwnaf
  · rw [Option.isNone_iff_eq_none] at haux
    have hopc := opcode_of_aux_none haux
    grind
  · have hne : opcode i ≠ 0x80 := hldc ▸ by decide
    grind
  · grind
  · grind

end Sys2Proof

namespace Sys2Proof.Machine

/-- The sequencer's turn comes with nothing changed but the schedule. -/
theorem RunsNext.exists_eq {s t : State} (h : RunsNext s t) : ∃ moves, t = { s with sched := moves } := by
  cases h with
  | unscheduled busy sched => exact ⟨s.sched, rfl⟩
  | chosen moves busy sched => exact ⟨moves, rfl⟩
  | hostIdle moves busy sched none => exact ⟨moves, rfl⟩

theorem exec_ne_refused (i : Instr) (s : State) (r : Refusal) : exec i s ≠ .refused r := by
  intro h
  obtain ⟨x, -, hexec⟩ := exec_ends i s
  obtain ⟨_, -, hend⟩ | ⟨_, -, hend⟩ | ⟨_, -, hend⟩ := finish_cases (opcode i) s x
  all_goals cases hend.symm.trans (hexec.symm.trans h)

/-! ### The checks of source slots (R175 check 5) -/

/-- What the check of one source slot answers. -/
def Source.check (s : State) (x : Source) : Except Stop Unit :=
  match s.slot x.slot with
  | some w => if x.kind.legal w then .ok () else .error (outOfField x.operand x.index x.slot)
  | none => .error (.fault (.unwrittenSlot x.slot))

/-- The checks of source slots, one after the other. -/
def checkSources (s : State) (xs : List Source) : Except Stop Unit := xs.forM (Source.check s)

theorem Source.check_of_ok {s : State} {x : Source} (h : x.ok s = true) : x.check s = .ok () := by
  unfold Source.ok at h
  unfold Source.check
  split at h
  · next hw => simp [hw, h]
  · cases h

theorem Source.check_of_illegal {s : State} {x : Source} {w : SlotWord} (hw : s.slot x.slot = some w)
    (h : x.kind.legal w = false) : x.check s = .error (outOfField x.operand x.index x.slot) := by
  simp [Source.check, hw, h]

theorem Source.check_raise {s : State} {x : Source} {e : CmdError} (h : x.check s = .error (.raise e)) :
    e.code = .outOfField := by
  unfold Source.check at h
  split at h
  · split at h
    · cases h
    · cases h
      rfl
  · cases h

theorem checkSources_cons (s : State) (x : Source) (xs : List Source) :
    checkSources s (x :: xs) = x.check s >>= fun _ => checkSources s xs := rfl

theorem checkSources_append (s : State) (xs ys : List Source) :
    checkSources s (xs ++ ys) = checkSources s xs >>= fun _ => checkSources s ys := List.forM_append

theorem checkSources_of_all {s : State} {xs : List Source} (h : xs.all (Source.ok s) = true) :
    checkSources s xs = .ok () := by
  induction xs with
  | nil => rfl
  | cons x xs ih =>
    obtain ⟨hx, hxs⟩ := Bool.and_eq_true _ _ ▸ h
    rw [checkSources_cons, Source.check_of_ok hx]
    exact ih hxs

/-- The first source slot that does not pass decides. -/
theorem checkSources_append_cons {s : State} {pre post : List Source} {x : Source} {st : Stop}
    (hpre : pre.all (Source.ok s) = true) (hx : x.check s = .error st) :
    checkSources s (pre ++ x :: post) = .error st := by
  rw [checkSources_append, checkSources_of_all hpre, checkSources_cons, hx]
  rfl

theorem checkSources_raise {s : State} {xs : List Source} {e : CmdError} (h : checkSources s xs = .error (.raise e)) :
    e.code = .outOfField := by
  induction xs with
  | nil => cases h
  | cons x xs ih =>
    obtain hx | ⟨_, -, hxs⟩ := except_bind_eq_error h
    · exact Source.check_raise hx
    · exact ih hxs

/-! ### Reading an operand checks its slots -/

/-- The slots `base` to `base + n − 1` of one element of an operand. -/
def elementSources (o : Operand) (k : SlotKind) (idx base n : Nat) : List Source :=
  (List.range n).map fun j => ⟨o, base + j, idx, k⟩

theorem elementSources_add (o : Operand) (k : SlotKind) (idx base m n : Nat) :
    elementSources o k idx base (m + n) = elementSources o k idx base m ++ elementSources o k idx (base + m) n := by
  simp [elementSources, List.range_add, Nat.add_assoc, Function.comp_def]

/-- Reading an operand of the layout comes down to the checks of its slots, as far as it stops. -/
def Layout.ChecksSlots {α : Type} (L : Layout α) (k : SlotKind) : Prop :=
  ∀ s o idx base, (fun _ => ()) <$> L.read s o idx base = checkSources s (elementSources o k idx base L.extent)

theorem checkSources_one (s : State) (o : Operand) (k : SlotKind) (idx base : Nat) :
    checkSources s (elementSources o k idx base 1) = Source.check s ⟨o, base, idx, k⟩ := by
  show checkSources s [⟨o, base, idx, k⟩] = _
  cases h : Source.check s ⟨o, base, idx, k⟩ <;> simp [checkSources, h]

theorem checksSlots_word : layoutWord.ChecksSlots .field := by
  intro s o idx base
  change (fun _ => ()) <$> readWord s o idx base = checkSources s (elementSources o .field idx base 1)
  rw [checkSources_one, Source.check, readWord, readSlot]
  cases s.slot base with
  | none => rfl
  | some w =>
    simp only [SlotKind.legal, decide_eq_true_eq]
    split <;> rfl

theorem readFp_eq_map (s : State) (o : Operand) (idx slot : Nat) :
    readFp s o idx slot = valOf <$> readWord s o idx slot := by
  unfold readFp
  cases readWord s o idx slot <;> rfl

theorem checksSlots_fp : layoutFp.ChecksSlots .field := by
  intro s o idx base
  change (fun _ => ()) <$> readFp s o idx base = _
  rw [readFp_eq_map, Functor.map_map]
  exact checksSlots_word s o idx base

theorem checksSlots_scalar (bound : Nat) : (layoutScalar bound).ChecksSlots (.scalar bound) := by
  intro s o idx base
  change (fun _ => ()) <$> readScalar bound s o idx base = checkSources s (elementSources o (.scalar bound) idx base 1)
  rw [checkSources_one, Source.check, readScalar, readSlot]
  cases s.slot base with
  | none => rfl
  | some w =>
    simp only [SlotKind.legal, Bool.and_eq_true, decide_eq_true_eq]
    split <;> rfl

theorem readRaw_checks (s : State) (o : Operand) (idx base n : Nat) :
    (fun _ => ()) <$> readRaw s n base = checkSources s (elementSources o .raw idx base n) := by
  induction n generalizing base with
  | zero => rfl
  | succ n ih =>
    rw [Nat.add_comm n 1, elementSources_add, checkSources_append, checkSources_one, ← ih (base + 1), Source.check,
      Nat.add_comm 1 n, readRaw, readSlot]
    cases s.slot base with
    | none => rfl
    | some w => cases readRaw s n (base + 1) <;> rfl

theorem checksSlots_raw (n : Nat) : (layoutRaw n).ChecksSlots .raw := fun s o idx base => readRaw_checks s o idx base n

theorem checksSlots_wn : layoutWN.ChecksSlots .raw := by
  intro s o idx base
  refine Eq.trans ?_ (readRaw_checks s o idx base 6)
  simp [layoutWN]

theorem Layout.ChecksSlots.pair {α β : Type} {L : Layout α} {M : Layout β} {k : SlotKind} (hL : L.ChecksSlots k)
    (hM : M.ChecksSlots k) : (L.pair M).ChecksSlots k := by
  intro s o idx base
  change (fun _ => ()) <$>
      (L.read s o idx base >>= fun x => M.read s o idx (base + L.extent) >>= fun y => pure (x, y)) =
    checkSources s (elementSources o k idx base (L.extent + M.extent))
  rw [elementSources_add, checkSources_append, ← hL, ← hM]
  simp

theorem Layout.ChecksSlots.iso {α β : Type} {L : Layout α} {k : SlotKind} (hL : L.ChecksSlots k) (make : α → β)
    (back : β → α) : (L.iso make back).ChecksSlots k := by
  intro s o idx base
  refine Eq.trans ?_ (hL s o idx base)
  simp [Layout.iso]

theorem Layout.ChecksSlots.point {F : Type} {L : Layout F} {k : SlotKind} (hL : L.ChecksSlots k) :
    (layoutPoint L).ChecksSlots k :=
  (hL.pair (hL.pair hL)).iso _ _

theorem checksSlots_fp2 : layoutFp2.ChecksSlots .field := (checksSlots_fp.pair checksSlots_fp).iso _ _
theorem checksSlots_sparse2 : layoutSparse2.ChecksSlots .field := checksSlots_fp2.pair checksSlots_fp2
theorem checksSlots_sparse3 : layoutSparse3.ChecksSlots .field := checksSlots_fp2.pair checksSlots_sparse2
theorem checksSlots_fp6 : layoutFp6.ChecksSlots .field := checksSlots_sparse3.iso _ _
theorem checksSlots_fp12 : layoutFp12.ChecksSlots .field := (checksSlots_fp6.pair checksSlots_fp6).iso _ _
theorem checksSlots_g1 : layoutG1.ChecksSlots .field := checksSlots_fp.point
theorem checksSlots_g2 : layoutG2.ChecksSlots .field := checksSlots_fp2.point

/-! ### Reading an operand checks its sources (R66) -/

/-- The sources of an operand of `n` elements of `size` slots each, from element `idx` on. -/
def listSources (o : Operand) (k : SlotKind) (size : Nat) : Nat → Nat → Nat → List Source
  | 0, _, _ => []
  | n + 1, idx, base => elementSources o k idx base size ++ listSources o k size n (idx + 1) (base + size)

theorem listSources_eq (o : Operand) (k : SlotKind) {size : Nat} (hsize : 0 < size) (n idx base : Nat) :
    listSources o k size n idx base = (List.range (n * size)).map fun j => ⟨o, base + j, idx + j / size, k⟩ := by
  induction n generalizing idx base with
  | zero => simp [listSources]
  | succ n ih =>
    have hfirst : elementSources o k idx base size = (List.range size).map fun j => ⟨o, base + j, idx + j / size, k⟩ :=
      List.map_congr_left fun j hj => by rw [Nat.div_eq_of_lt (List.mem_range.mp hj), Nat.add_zero]
    rw [listSources, ih, hfirst, Nat.succ_mul, Nat.add_comm (n * size), List.range_add, List.map_append, List.map_map]
    congr 2
    funext j
    simp [Nat.add_div_left _ hsize, Nat.add_assoc, Nat.add_comm 1]

/-- Reading an operand of the layout comes down to the checks of the sources of a use of R72, as far as it stops. -/
structure Layout.ChecksUse {α : Type} (L : Layout α) (n size : Nat) (k : SlotKind) : Prop where
  extent : L.extent = n * size
  read : ∀ s o base, (fun _ => ()) <$> L.read s o 0 (BitVec.toNat base) =
    checkSources s (Use.sources ⟨o, base, n, size, k⟩)

theorem Use.sources_eq {o : Operand} {base : SlotAddr} {n size : Nat} {k : SlotKind} (hsize : 0 < size)
    (hk : k ≠ .result) : Use.sources ⟨o, base, n, size, k⟩ = listSources o k size n 0 base.toNat := by
  rw [listSources_eq o k hsize]
  unfold Use.sources
  split
  · contradiction
  · simp [Use.extent]

theorem Layout.ChecksSlots.one {α : Type} {L : Layout α} {k : SlotKind} (hL : L.ChecksSlots k) (hsize : 0 < L.extent)
    (hk : k ≠ .result) : L.ChecksUse 1 L.extent k where
  extent := (Nat.one_mul _).symm
  read s o base := by
    rw [hL, Use.sources_eq hsize hk, listSources, listSources, List.append_nil]

theorem readListFrom_checks {α : Type} {L : Layout α} {k : SlotKind} (hL : L.ChecksSlots k) (s : State) (o : Operand)
    (n idx base : Nat) :
    (fun _ => ()) <$> readListFrom L s o n idx base = checkSources s (listSources o k L.extent n idx base) := by
  induction n generalizing idx base with
  | zero => rfl
  | succ n ih =>
    rw [listSources, checkSources_append, ← hL, ← ih, readListFrom]
    cases L.read s o idx base with
    | error st => rfl
    | ok x => cases readListFrom L s o n (idx + 1) (base + L.extent) <;> rfl

theorem Layout.ChecksSlots.list {α : Type} {L : Layout α} {k : SlotKind} (hL : L.ChecksSlots k) (hsize : 0 < L.extent)
    (hk : k ≠ .result) (n : Nat) : (layoutList n L).ChecksUse n L.extent k where
  extent := rfl
  read s o base := by
    rw [Use.sources_eq hsize hk]
    exact readListFrom_checks hL s o n 0 base.toNat

theorem checksUse_word : layoutWord.ChecksUse 1 1 .field := checksSlots_word.one (by decide) nofun
theorem checksUse_fp : layoutFp.ChecksUse 1 1 .field := checksSlots_fp.one (by decide) nofun
theorem checksUse_fp2 : layoutFp2.ChecksUse 1 2 .field := checksSlots_fp2.one (by decide) nofun
theorem checksUse_sparse2 : layoutSparse2.ChecksUse 1 4 .field := checksSlots_sparse2.one (by decide) nofun
theorem checksUse_sparse3 : layoutSparse3.ChecksUse 1 6 .field := checksSlots_sparse3.one (by decide) nofun
theorem checksUse_fp6 : layoutFp6.ChecksUse 1 6 .field := checksSlots_fp6.one (by decide) nofun
theorem checksUse_fp12 : layoutFp12.ChecksUse 1 12 .field := checksSlots_fp12.one (by decide) nofun
theorem checksUse_g1 : layoutG1.ChecksUse 1 3 .field := checksSlots_g1.one (by decide) nofun
theorem checksUse_g2 : layoutG2.ChecksUse 1 6 .field := checksSlots_g2.one (by decide) nofun
theorem checksUse_scalar (bound : Nat) : (layoutScalar bound).ChecksUse 1 1 (.scalar bound) :=
  (checksSlots_scalar bound).one Nat.one_pos nofun
theorem checksUse_raw (n : Nat) : (layoutRaw (n + 1)).ChecksUse 1 (n + 1) .raw :=
  (checksSlots_raw (n + 1)).one n.succ_pos nofun
theorem checksUse_wn : layoutWN.ChecksUse 1 6 .raw := checksSlots_wn.one (by decide) nofun
theorem checksUse_g1List (n : Nat) : (layoutList n layoutG1).ChecksUse n 3 .field :=
  checksSlots_g1.list (by decide) nofun n
theorem checksUse_g2List (n : Nat) : (layoutList n layoutG2).ChecksUse n 6 .field :=
  checksSlots_g2.list (by decide) nofun n
theorem checksUse_scalarList (n bound : Nat) : (layoutList n (layoutScalar bound)).ChecksUse n 1 (.scalar bound) :=
  (checksSlots_scalar bound).list Nat.one_pos nofun n

/-! ### The checks of a command in their order (R175) -/

/-- The errors of a command's own check (R175 check 6): SQRT, ADDM, CHECK and FROMWNAF. -/
inductive OwnError : Instr → ErrCode → Prop where
  | fpSqrt (d a : SlotAddr) : OwnError (.fpSqrt d a) .nonsquare
  | g1Addm (d a b : SlotAddr) : OwnError (.g1Addm d a b) .notAffine
  | g2Addm (d a b : SlotAddr) : OwnError (.g2Addm d a b) .notAffine
  | g1CheckCurve (a : SlotAddr) : OwnError (.g1Check a) .offCurve
  | g1CheckSubgroup (a : SlotAddr) : OwnError (.g1Check a) .wrongSubgroup
  | g2CheckCurve (a : SlotAddr) : OwnError (.g2Check a) .offCurve
  | g2CheckSubgroup (a : SlotAddr) : OwnError (.g2Check a) .wrongSubgroup
  | fromwnaf (d a : SlotAddr) : OwnError (.fromwnaf d a) .outOfField

/-- What a command may compute from legal operands: an effect, or the error of its own check. -/
def OwnResult (i : Instr) : Except Stop Effect → Prop
  | .ok _ => True
  | .error (.raise e) => OwnError i e.code
  | .error (.fault _) => False

/-- `r` is what the checks `c` stop with, and an own result of the command where they pass. -/
def AfterChecks (i : Instr) (c : Except Stop Unit) (r : Except Stop Effect) : Prop :=
  ∃ own, OwnResult i own ∧ r = c >>= fun _ => own

/-- After its count the command checks its extents, then its source slots, and then only a check of its own can fail. -/
def RunsChecks (i : Instr) (s : State) (o : Host.Outcome State Fault Refusal) : Prop :=
  ∃ r, AfterChecks i (checkSources s (sourcesOf s i)) r ∧
    o = finish (opcode i) s (checkExtents s (operandsOf s i) >>= fun _ => r)

theorem OwnResult.afterChecks {i : Instr} {r : Except Stop Effect} (h : OwnResult i r) : AfterChecks i (.ok ()) r :=
  ⟨r, h, rfl⟩

theorem ownResult_ite {i : Instr} {p : Prop} [Decidable p] {x y : Except Stop Effect} (hx : OwnResult i x)
    (hy : OwnResult i y) : OwnResult i (if p then x else y) := by
  split
  · exact hx
  · exact hy

/-- A read that comes down to the checks `c`, and what follows it. -/
theorem AfterChecks.bind {α : Type} {i : Instr} {x : Except Stop α} {c c' : Except Stop Unit}
    {k : α → Except Stop Effect} (hx : (fun _ => ()) <$> x = c) (hk : ∀ a, AfterChecks i c' (k a)) :
    AfterChecks i (c >>= fun _ => c') (x >>= k) := by
  subst hx
  cases x with
  | error st => exact ⟨.ok {}, trivial, rfl⟩
  | ok a => exact hk a

theorem AfterChecks.last {α : Type} {i : Instr} {x : Except Stop α} {c : Except Stop Unit}
    {k : α → Except Stop Effect} (hx : (fun _ => ()) <$> x = c) (hk : ∀ a, OwnResult i (k a)) :
    AfterChecks i c (x >>= k) := by
  have h := AfterChecks.bind hx fun a => (hk a).afterChecks
  rwa [show (c >>= fun _ => .ok ()) = c from bind_pure_unit] at h

section Shapes

variable {i : Instr} {s : State} {α β : Type} {LA : Layout α} {LB : Layout β} {d a b : SlotAddr}
  {na sa nb sb nd sd n : Nat} {ka kb : SlotKind} (hA : LA.ChecksUse na sa ka) (hB : LB.ChecksUse nb sb kb)
include hA

theorem runsChecks_commandA {body : α → Except Stop Effect} (huses : usesOf s i = [⟨.a, a, na, sa, ka⟩])
    (hbody : ∀ x, OwnResult i (body x)) : RunsChecks i s (commandA (opcode i) LA a s body) := by
  have hsources : sourcesOf s i = Use.sources ⟨.a, a, na, sa, ka⟩ := by simp [sourcesOf, huses]
  have hops : operandsOf s i = [(.a, a, LA.extent)] := by simp [operandsOf, huses, Use.extent, hA.extent]
  rw [RunsChecks, hsources, hops]
  exact ⟨_, .last (hA.read s .a a) hbody, rfl⟩

theorem runsChecks_commandDA {body : α → Except Stop Effect}
    (huses : usesOf s i = [⟨.d, d, nd, sd, .result⟩, ⟨.a, a, na, sa, ka⟩]) (hd : n = nd * sd)
    (hbody : ∀ x, OwnResult i (body x)) : RunsChecks i s (commandDA (opcode i) n LA d a s body) := by
  have hsources : sourcesOf s i = Use.sources ⟨.a, a, na, sa, ka⟩ := by simp [sourcesOf, huses, Use.sources]
  have hops : operandsOf s i = [(.d, d, n), (.a, a, LA.extent)] := by
    simp [operandsOf, huses, Use.extent, hA.extent, hd]
  rw [RunsChecks, hsources, hops]
  exact ⟨_, .last (hA.read s .a a) hbody, rfl⟩

include hB

theorem runsChecks_commandAB {body : α → β → Except Stop Effect}
    (huses : usesOf s i = [⟨.a, a, na, sa, ka⟩, ⟨.b, b, nb, sb, kb⟩]) (hbody : ∀ x y, OwnResult i (body x y)) :
    RunsChecks i s (commandAB (opcode i) LA LB a b s body) := by
  have hsources : sourcesOf s i = Use.sources ⟨.a, a, na, sa, ka⟩ ++ Use.sources ⟨.b, b, nb, sb, kb⟩ := by
    simp [sourcesOf, huses]
  have hops : operandsOf s i = [(.a, a, LA.extent), (.b, b, LB.extent)] := by
    simp [operandsOf, huses, Use.extent, hA.extent, hB.extent]
  rw [RunsChecks, hsources, checkSources_append, hops]
  exact ⟨_, .bind (hA.read s .a a) fun x => .last (hB.read s .b b) (hbody x), rfl⟩

theorem runsChecks_commandDAB {body : α → β → Except Stop Effect}
    (huses : usesOf s i = [⟨.d, d, nd, sd, .result⟩, ⟨.a, a, na, sa, ka⟩, ⟨.b, b, nb, sb, kb⟩])
    (hd : n = nd * sd) (hbody : ∀ x y, OwnResult i (body x y)) :
    RunsChecks i s (commandDAB (opcode i) n LA LB d a b s body) := by
  have hsources : sourcesOf s i = Use.sources ⟨.a, a, na, sa, ka⟩ ++ Use.sources ⟨.b, b, nb, sb, kb⟩ := by
    simp [sourcesOf, huses, Use.sources]
  have hops : operandsOf s i = [(.d, d, n), (.a, a, LA.extent), (.b, b, LB.extent)] := by
    simp [operandsOf, huses, Use.extent, hA.extent, hB.extent, hd]
  rw [RunsChecks, hsources, checkSources_append, hops]
  exact ⟨_, .bind (hA.read s .a a) fun x => .last (hB.read s .b b) (hbody x), rfl⟩

end Shapes

/-- A list command whose count passes is its run. -/
theorem runsChecks_listCommand {i : Instr} {s : State} {run : Host.Outcome State Fault Refusal}
    (hshape : shapeOk s i = true) (hlist : isListCommand i = true) (h : RunsChecks i s run) :
    RunsChecks i s (listCommand (opcode i) s run) := by
  rwa [listCommand_of_count_le (by simpa [shapeOk, hlist] using hshape)]

theorem runsChecks_ldc {d : SlotAddr} {k : BitVec 8} (h : WellFormed (.ldc d k) = true) (s : State) :
    RunsChecks (.ldc d k) s (exec (.ldc d k) s) := by
  cases hrom : romEntry k.toNat with
  | none => exact absurd (by rw [hrom]; rfl) (romEntry_ne_nil (of_decide_eq_true h))
  | some ws =>
    have hops : operandsOf s (.ldc d k) = [(.d, d, ws.length)] := by
      simp [operandsOf, usesOf, uses, Use.extent, hrom]
    rw [RunsChecks, hops, exec_ldc_of_romEntry hrom]
    exact ⟨.ok { writes := place d.toNat ws }, OwnResult.afterChecks trivial, rfl⟩

theorem runsChecks_wnaf {d a : SlotAddr} {w : BitVec 8} (h : WellFormed (.wnaf d a w) = true) (s : State) :
    RunsChecks (.wnaf d a w) s (exec (.wnaf d a w) s) := by
  have hwidth : ¬ (w.toNat < 2 ∨ w.toNat > 8) := by
    rw [WellFormed, Bool.and_eq_true, decide_eq_true_eq, decide_eq_true_eq] at h
    omega
  simp only [exec, execWnaf, if_neg hwidth]
  exact runsChecks_commandDA (checksUse_scalar _) rfl rfl fun _ => trivial

theorem runsChecks_fpSqrt (d a : SlotAddr) (s : State) : RunsChecks (.fpSqrt d a) s (exec (.fpSqrt d a) s) := by
  refine runsChecks_commandDA checksUse_fp rfl rfl fun x => ?_
  generalize x.pow ((Config.p + 1) / 4) = root
  exact ownResult_ite trivial (OwnError.fpSqrt d a)

section Groups

variable {F : Type} {G : Group F} [DecidableEq F] {i : Instr} {s : State} {d a b : SlotAddr} {size : Nat}
  (hG : G.layout.ChecksUse 1 size .field)
include hG

theorem runsChecks_groupAddm
    (huses : usesOf s i = [⟨.d, d, 1, size, .result⟩, ⟨.a, a, 1, size, .field⟩, ⟨.b, b, 1, size, .field⟩])
    (hown : OwnError i .notAffine) : RunsChecks i s (groupAddm G (opcode i) d a b s) :=
  runsChecks_commandDAB hG hG huses hG.extent fun _ _ => ownResult_ite trivial hown

theorem runsChecks_groupCheck (huses : usesOf s i = [⟨.a, a, 1, size, .field⟩]) (hcurve : OwnError i .offCurve)
    (hsubgroup : OwnError i .wrongSubgroup) : RunsChecks i s (groupCheck G (opcode i) a s) :=
  runsChecks_commandA hG huses fun _ => ownResult_ite hcurve (ownResult_ite hsubgroup trivial)

end Groups

/-- Every command whose word and count pass runs the checks of R175 in their order. -/
theorem exec_runsChecks {i : Instr} {s : State} (hwf : WellFormed i = true) (hshape : shapeOk s i = true) :
    RunsChecks i s (exec i s) := by
  cases i with
  | nop => exact ⟨_, OwnResult.afterChecks (r := .ok {}) trivial, rfl⟩
  | copy d a k =>
    exact runsChecks_commandDA (checksUse_raw _) rfl (Nat.one_mul _).symm fun _ => trivial
  | ldc d k => exact runsChecks_ldc hwf s
  | wnaf d a w => exact runsChecks_wnaf hwf s
  | fromwnaf d a =>
    exact runsChecks_commandDA checksUse_wn rfl rfl fun _ => ownResult_ite (OwnError.fromwnaf d a) trivial
  | fpAdd d a b | fpSub d a b | fpMul d a b =>
    exact runsChecks_commandDAB checksUse_word checksUse_word rfl rfl fun _ _ => trivial
  | fpDbl d a | fpNeg d a | fpSqr d a | fpTomont d a | fpFrommont d a | fpInv d a =>
    exact runsChecks_commandDA checksUse_word rfl rfl fun _ => trivial
  | fpSqrt d a => exact runsChecks_fpSqrt d a s
  | fpIsqnr a => exact runsChecks_commandA checksUse_fp rfl fun _ => trivial
  | fpEq a b => exact runsChecks_commandAB checksUse_fp checksUse_fp rfl fun _ _ => trivial
  | fpIszero a => exact runsChecks_commandA checksUse_word rfl fun _ => trivial
  | fp2Add d a b | fp2Sub d a b | fp2Mul d a b =>
    exact runsChecks_commandDAB checksUse_fp2 checksUse_fp2 rfl rfl fun _ _ => trivial
  | fp2Dbl d a | fp2Neg d a | fp2Sqr d a | fp2Inv d a | fp2Conj d a | fp2Frob d a k =>
    exact runsChecks_commandDA checksUse_fp2 rfl rfl fun _ => trivial
  | fp2Eq a b => exact runsChecks_commandAB checksUse_fp2 checksUse_fp2 rfl fun _ _ => trivial
  | fp6Add d a b | fp6Sub d a b | fp6Mul d a b =>
    exact runsChecks_commandDAB checksUse_fp6 checksUse_fp6 rfl rfl fun _ _ => trivial
  | fp6Dbl d a | fp6Neg d a | fp6Sqr d a | fp6Inv d a | fp6Frob d a k =>
    exact runsChecks_commandDA checksUse_fp6 rfl rfl fun _ => trivial
  | fp6Mulby01 d a b => exact runsChecks_commandDAB checksUse_fp6 checksUse_sparse2 rfl rfl fun _ _ => trivial
  | fp6Mulby1 d a b => exact runsChecks_commandDAB checksUse_fp6 checksUse_fp2 rfl rfl fun _ _ => trivial
  | fp6Eq a b => exact runsChecks_commandAB checksUse_fp6 checksUse_fp6 rfl fun _ _ => trivial
  | fp12Add d a b | fp12Sub d a b | fp12Mul d a b =>
    exact runsChecks_commandDAB checksUse_fp12 checksUse_fp12 rfl rfl fun _ _ => trivial
  | fp12Dbl d a | fp12Neg d a | fp12Sqr d a | fp12Inv d a | fp12Conj d a | fp12Frob d a k | fp12Csqr d a
  | finalexp d a | cexp d a =>
    exact runsChecks_commandDA checksUse_fp12 rfl rfl fun _ => trivial
  | fp12Mulby014 d a b | fp12Mulby034 d a b =>
    exact runsChecks_commandDAB checksUse_fp12 checksUse_sparse3 rfl rfl fun _ _ => trivial
  | fp12Eq a b => exact runsChecks_commandAB checksUse_fp12 checksUse_fp12 rfl fun _ _ => trivial
  | g1Add d a b | g1Sub d a b => exact runsChecks_commandDAB checksUse_g1 checksUse_g1 rfl rfl fun _ _ => trivial
  | g1Addm d a b => exact runsChecks_groupAddm (G := groupG1) checksUse_g1 rfl (.g1Addm d a b)
  | g1Dbl d a | g1Neg d a | g1Affine d a => exact runsChecks_commandDA checksUse_g1 rfl rfl fun _ => trivial
  | g1Mul d a b | g1Mulct d a b =>
    exact runsChecks_commandDAB checksUse_g1 (checksUse_scalar _) rfl rfl fun _ _ => trivial
  | g1Eq a b => exact runsChecks_commandAB checksUse_g1 checksUse_g1 rfl fun _ _ => trivial
  | g1Iszero a | g1Oncurve a | g1Insub a | g1Isaffine a => exact runsChecks_commandA checksUse_g1 rfl fun _ => trivial
  | g1Check a =>
    exact runsChecks_groupCheck (G := groupG1) checksUse_g1 rfl (.g1CheckCurve a) (.g1CheckSubgroup a)
  | g1Affb d a =>
    exact runsChecks_listCommand hshape rfl <|
      runsChecks_commandDA (checksUse_g1List _) rfl rfl fun _ => trivial
  | g1Msm d a b =>
    exact runsChecks_listCommand hshape rfl <|
      runsChecks_commandDAB (checksUse_g1List _) (checksUse_scalarList _ _) rfl rfl fun _ _ => trivial
  | g2Add d a b | g2Sub d a b => exact runsChecks_commandDAB checksUse_g2 checksUse_g2 rfl rfl fun _ _ => trivial
  | g2Addm d a b => exact runsChecks_groupAddm (G := groupG2) checksUse_g2 rfl (.g2Addm d a b)
  | g2Dbl d a | g2Neg d a | g2Affine d a => exact runsChecks_commandDA checksUse_g2 rfl rfl fun _ => trivial
  | g2Mul d a b | g2Mulct d a b =>
    exact runsChecks_commandDAB checksUse_g2 (checksUse_scalar _) rfl rfl fun _ _ => trivial
  | g2Eq a b => exact runsChecks_commandAB checksUse_g2 checksUse_g2 rfl fun _ _ => trivial
  | g2Iszero a | g2Oncurve a | g2Insub a | g2Isaffine a => exact runsChecks_commandA checksUse_g2 rfl fun _ => trivial
  | g2Check a =>
    exact runsChecks_groupCheck (G := groupG2) checksUse_g2 rfl (.g2CheckCurve a) (.g2CheckSubgroup a)
  | g2Affb d a =>
    exact runsChecks_listCommand hshape rfl <|
      runsChecks_commandDA (checksUse_g2List _) rfl rfl fun _ => trivial
  | g2Msm d a b =>
    exact runsChecks_listCommand hshape rfl <|
      runsChecks_commandDAB (checksUse_g2List _) (checksUse_scalarList _ _) rfl rfl fun _ _ => trivial
  | miller d a b | pair d a b =>
    exact runsChecks_listCommand hshape rfl <|
      runsChecks_commandDAB (checksUse_g1List _) (checksUse_g2List _) rfl rfl fun _ _ => trivial
  | pcheck a b =>
    exact runsChecks_listCommand hshape rfl <|
      runsChecks_commandAB (checksUse_g1List _) (checksUse_g2List _) rfl fun _ _ => trivial

/-! ### The code of an error (R173) -/

theorem failsWith_reservedField {i : Instr} (h : WellFormed i = false) (s : State) :
    failsWith i s ⟨.reservedField, .none, 0, 0⟩ := by
  cases i with
  | ldc d k =>
    have hindex : 10 ≤ k.toNat := Nat.le_of_not_lt (of_decide_eq_false h)
    exact Proofs.ldcLoadsTheConstants.2.1 s d k hindex
  | wnaf d a w =>
    rw [WellFormed, Bool.and_eq_false_iff, decide_eq_false_iff_not, decide_eq_false_iff_not] at h
    exact if_pos (by omega)
  | _ => cases h

theorem failsWith_shape_of_shapeOk {i : Instr} {s : State} (h : shapeOk s i = false) :
    failsWith i s ⟨.shape, .none, 0, s.countLatch⟩ := by
  simp only [shapeOk, Bool.or_eq_false_iff, Bool.not_eq_false', decide_eq_false_iff_not, Nat.not_le] at h
  exact failsWith_shape h.1 h.2

theorem AfterChecks.code_of_raise {i : Instr} {s : State} {xs : List Source} {e : CmdError}
    (h : AfterChecks i (checkSources s xs) (.error (.raise e))) : e.code = .outOfField ∨ OwnError i e.code := by
  obtain ⟨own, hown, hr⟩ := h
  obtain hsources | ⟨-, -, rfl⟩ := except_bind_eq_error hr.symm
  · exact .inl (checkSources_raise hsources)
  · exact .inr hown

theorem RunsChecks.errCode_cases {i : Instr} {s t : State} (h : RunsChecks i s (.next t)) :
    t.errCode.number.toNat ≤ 5 ∨ OwnError i t.errCode := by
  obtain ⟨r, hr, hnext⟩ := h
  obtain ⟨hok, -⟩ | ⟨o, base, herr⟩ := checkExtents_cases s (operandsOf s i)
  · rw [hok] at hnext
    match r with
    | .ok e =>
      cases hnext
      exact .inl (by simp [ErrCode.number])
    | .error (.raise e) =>
      cases hnext
      refine hr.code_of_raise.imp_left fun hcode => ?_
      simp [hcode, ErrCode.number]
    | .error (.fault f) => cases hnext
  · rw [herr] at hnext
    cases hnext
    exact .inl (by simp [ErrCode.number])

/-- A command ends with no error, with one of the codes 1 to 5, or with the error of its own check. -/
theorem exec_errCode_cases {i : Instr} {s t : State} (h : exec i s = .next t) :
    t.errCode.number.toNat ≤ 5 ∨ OwnError i t.errCode := by
  cases hwf : WellFormed i with
  | false =>
    cases (failsWith_reservedField hwf s).symm.trans h
    exact .inl (by simp [ErrCode.number])
  | true =>
    cases hshape : shapeOk s i with
    | false =>
      cases (failsWith_shape_of_shapeOk hshape).symm.trans h
      exact .inl (by simp [ErrCode.number])
    | true => exact (h ▸ exec_runsChecks hwf hshape).errCode_cases

theorem OwnError.hasOwnCheck {i : Instr} {c : ErrCode} (h : OwnError i c) : hasOwnCheck i = true := by
  cases h <;> rfl

theorem OwnError.isCheck {i : Instr} {c : ErrCode} (h : OwnError i c) (hc : c.number.toNat = 8 ∨ c.number.toNat = 9) :
    ∃ a, i = .g1Check a ∨ i = .g2Check a := by
  cases h with
  | g1CheckCurve a | g1CheckSubgroup a => exact ⟨a, .inl rfl⟩
  | g2CheckCurve a | g2CheckSubgroup a => exact ⟨a, .inr rfl⟩
  | _ => exact absurd hc (by decide)

/-! ### Commands on legal operands -/

/-- With its count and extents in order, a command comes down to the checks of its source slots. -/
theorem exec_of_extentsOk {i : Instr} {s : State} (hwf : WellFormed i = true) (hshape : shapeOk s i = true)
    (hext : extentsOk s i = true) :
    ∃ own, OwnResult i own ∧ exec i s = finish (opcode i) s (checkSources s (sourcesOf s i) >>= fun _ => own) := by
  obtain ⟨_, ⟨own, hown, rfl⟩, hexec⟩ := exec_runsChecks hwf hshape
  rw [checkExtents_of_extentsOk hext] at hexec
  exact ⟨own, hown, hexec⟩

/-- A source slot that stops the checks ends the command. -/
theorem exec_of_source_error {i : Instr} {s : State} {pre post : List Source} {x : Source} {st : Stop}
    (hwf : WellFormed i = true) (hshape : shapeOk s i = true) (hext : extentsOk s i = true)
    (hsources : sourcesOf s i = pre ++ x :: post) (hpre : pre.all (Source.ok s) = true) (hx : x.check s = .error st) :
    exec i s = finish (opcode i) s (.error st) := by
  obtain ⟨own, -, hexec⟩ := exec_of_extentsOk hwf hshape hext
  rw [hexec, hsources, checkSources_append_cons hpre hx]
  rfl

theorem exists_completes_of_operandsOk {i : Instr} {s : State} (hwf : WellFormed i = true)
    (hown : hasOwnCheck i = false) (h : operandsOk s i = true) : ∃ e, completes i s e := by
  simp only [operandsOk, Bool.and_eq_true] at h
  obtain ⟨⟨hshape, hext⟩, hsources⟩ := h
  obtain ⟨own, hresult, hexec⟩ := exec_of_extentsOk hwf hshape hext
  rw [checkSources_of_all hsources] at hexec
  match own with
  | .ok e => exact ⟨e, hexec⟩
  | .error (.raise e) => exact absurd (OwnError.hasOwnCheck hresult) (by simp [hown])
  | .error (.fault f) => exact hresult.elim

end Sys2Proof.Machine

namespace Sys2Proof.Proofs

open Sys2Proof.Machine

/-- Settles O7: the step is `State.rejectWord`, which writes the error fields only, and the field it names is the first
whose check fails (`checkReserved_four`). -/
theorem rejectedWordRecordsItsError : Obligations.RejectedWordRecordsItsError := by
  intro s t e hruns hdecode
  obtain ⟨moves, rfl⟩ := hruns.exists_eq
  refine ⟨_, step_of_decode_error hruns hdecode, ?_⟩
  cases e with
  | illegalOpcode => exact ⟨rfl, rfl, rfl, rfl, fun _ => ⟨rfl, rfl⟩, nofun⟩
  | reservedField f =>
    refine ⟨rfl, rfl, rfl, rfl, nofun, ?_⟩
    rintro f ⟨⟩
    refine ⟨rfl, rfl, ?_⟩
    obtain ⟨i, hi⟩ | hun := opcode_cases (opcOf s.cmd)
    · refine ⟨i, hi, ?_⟩
      obtain ⟨hx, hd, ha, hb, hx', hd', ha'⟩ := checkReserved_four (checkReserved_of_decode_error hi.symm hdecode)
      rw [← Bool.not_eq_true, auxLegal_iff] at hx
      rw [auxLegal_iff] at hx'
      simp only [Bool.or_eq_false_iff, Option.isSome_eq_false_iff, Option.isNone_iff_eq_none, beq_eq_false_iff_ne]
        at hd ha hb
      exact ⟨hx, hd, ha, hb, hx', fun hf hnone => by simpa [hnone] using hd' hf,
        fun hf hnone => by simpa [hnone] using ha' hf⟩
    · cases (decode_of_unassigned hun).symm.trans hdecode

/-- Settles O9: a command that goes on succeeded or failed with a code (`exec_next_cases`), and each completion sets its
fields over the values of acceptance. -/
theorem everyCommandEndsOnce : Obligations.EveryCommandEndsOnce := by
  intro i s hacc
  simp only [accepted, Bool.and_eq_true, Bool.not_eq_true', decide_eq_true_eq] at hacc
  obtain ⟨⟨⟨⟨-, hflag⟩, hresult⟩, -⟩, hinfo⟩ := hacc
  refine ⟨fun t h => ?_, exec_ne_refused i s⟩
  obtain ⟨e, -, rfl⟩ | ⟨e, hcode, rfl⟩ := exec_next_cases h
  · exact ⟨rfl, rfl, Bool.and_true _, .inl ⟨rfl, hinfo, rfl⟩⟩
  · exact ⟨rfl, rfl, Bool.and_true _, .inr ⟨hcode, rfl, rfl, rfl, hflag, hresult⟩⟩

/-- Settles O19: the checks of the source slots stop at the first that is not legal, and the command with them. -/
theorem firstIllegalSourceIsOutOfField : Obligations.FirstIllegalSourceIsOutOfField :=
  fun _ _ _ _ _ _ hwf hshape hext hsources hpre hw hillegal =>
    exec_of_source_error hwf hshape hext hsources hpre (Source.check_of_illegal hw hillegal)

/-- Settles O21: on legal operands only an own check can fail (`exists_completes_of_operandsOk`), and a code above 5 is
that of an own check (`exec_errCode_cases`), of which CHECK's alone have the codes 8 and 9. -/
theorem totalCommandsFailOnlyByCodes1To5 : Obligations.TotalCommandsFailOnlyByCodes1To5 := by
  refine ⟨fun _ _ => exists_completes_of_operandsOk, fun i s t hi _ h => ?_, fun i s t h hcode => ?_,
    fun _ _ _ ha => ⟨completes_test1 lawful_g1 rfl ha rfl, completes_test1 lawful_g1 rfl ha rfl⟩,
    fun _ _ _ ha => ⟨completes_test1 lawful_g2 rfl ha rfl, completes_test1 lawful_g2 rfl ha rfl⟩⟩
  · obtain hle | hown := exec_errCode_cases h
    · exact hle
    · obtain hnone | ⟨d, a, rfl⟩ := hi
      · exact absurd hown.hasOwnCheck (by simp [hnone])
      · generalize t.errCode = c at hown ⊢
        cases hown
        decide
  · obtain hle | hown := exec_errCode_cases h
    · omega
    · exact hown.isCheck hcode

end Sys2Proof.Proofs
end

section
/-! PROOFS. A busy block becomes idle (O16), a command stops at a source slot that holds no value (O20), and the two
resets (O59). -/

namespace Sys2Proof.Machine

/-! ### One step of a busy block -/

theorem State.rejectWord_busy (s : State) (e : DecodeError) : (s.rejectWord e).busy = false := by
  cases e <;> rfl

/-- A host event is performed, or it reads a limb that holds no value (D37). -/
theorem perform_cases (s : State) (e : HostEvent) :
    (∃ t, perform s e = .next t) ∨ ∃ n, perform s e = .fault (.unwrittenSlot n) := by
  cases e with
  | hardReset => exact .inl ⟨_, rfl⟩
  | write addr width v =>
    simp only [perform, performWrite]
    split
    · split <;> exact .inl ⟨_, rfl⟩
    · exact .inl ⟨_, rfl⟩
  | read addr width =>
    simp only [perform, performRead]
    split
    · split
      · exact .inl ⟨_, rfl⟩
      · exact .inl ⟨_, rfl⟩
      · split
        · exact .inl ⟨_, rfl⟩
        · exact .inr ⟨_, rfl⟩
    · exact .inl ⟨_, rfl⟩

/-- Beside a running command a host event is held or performed, and the moves left stay as they are. -/
theorem hostWhileBusy_cases (s : State) (e : HostEvent) :
    (∃ t, hostWhileBusy s e = .next t ∧ t.sched = s.sched) ∨ ∃ n, hostWhileBusy s e = .fault (.unwrittenSlot n) := by
  unfold hostWhileBusy
  split
  · exact .inl ⟨_, rfl, rfl⟩
  · obtain ⟨t, ht⟩ | hfault := perform_cases s e
    · obtain ⟨-, hsched, -, -⟩ := perform_keeps ht
      exact .inl ⟨t, ht, hsched⟩
    · exact .inr hfault

/-- A command leaves the block idle, or it faults at a slot that holds no value (D37). -/
theorem exec_cases (i : Instr) (s : State) :
    (∃ t, exec i s = .next t ∧ t.busy = false) ∨ ∃ n, exec i s = .fault (.unwrittenSlot n) := by
  obtain ⟨r, -, hexec⟩ := exec_ends i s
  obtain ⟨e, -, hend⟩ | ⟨e, -, hend⟩ | ⟨⟨n⟩, -, hend⟩ := finish_cases (opcode i) s r
  · exact .inl ⟨_, hexec.trans hend, rfl⟩
  · exact .inl ⟨_, hexec.trans hend, rfl⟩
  · exact .inr ⟨n, hexec.trans hend⟩

theorem step_cases_of_runsNext {s t : State} (h : RunsNext s t) :
    (∃ u, step s = .next u ∧ u.busy = false) ∨ ∃ n, step s = .fault (.unwrittenSlot n) := by
  cases hdecode : decode s.cmd with
  | ok i =>
    rw [step_of_decode_ok h hdecode]
    exact exec_cases i t
  | error e => exact .inl ⟨_, step_of_decode_error h hdecode, t.rejectWord_busy e⟩

/-- A step of a busy block leaves it idle, or uses up a move of its schedule, or faults at a slot that holds no value. -/
theorem step_cases_of_busy {s : State} (hbusy : s.busy = true) :
    (∃ t, step s = .next t ∧ (t.busy = false ∨ t.sched.length < s.sched.length)) ∨
      ∃ n, step s = .fault (.unwrittenSlot n) := by
  obtain ⟨hidle, -⟩ | ⟨t, hruns, -⟩ | ⟨e, rest, moves, -, hsched, -, hmove⟩ := nextMove_cases s
  · cases hidle.symm.trans hbusy
  · obtain ⟨u, hstep, hidle⟩ | hfault := step_cases_of_runsNext hruns
    · exact .inl ⟨u, hstep, .inl hidle⟩
    · exact .inr hfault
  · have hstep : step s = hostWhileBusy { s with sched := moves, host := rest } e := by simp only [step, hmove]
    rw [hstep]
    obtain ⟨t, ht, hkeep⟩ | hfault := hostWhileBusy_cases { s with sched := moves, host := rest } e
    · exact .inl ⟨t, ht, .inr (by simp [hkeep, hsched])⟩
    · exact .inr hfault

/-! ### The run of a busy block -/

theorem run_succ_of_next {M : Host.Core} {s t : M.State} (h : M.step s = .next t) (k : Nat) :
    M.run (k + 1) s = M.run k t := by
  simp only [Host.Core.run, h]

theorem run_succ_of_fault {M : Host.Core} {s : M.State} {f : M.Fault} (h : M.step s = .fault f) (k : Nat) :
    M.run (k + 1) s = .fault f := by
  simp only [Host.Core.run, h]

/-- The run of `k` steps ends idle, or at the fault of a slot that holds no value (D37). -/
def RunsToIdle (k : Nat) (s : State) : Prop :=
  (∃ t, core.run k s = .next t ∧ State.busy t = false) ∨ ∃ n, core.run k s = .fault (.unwrittenSlot n)

theorem RunsToIdle.of_next {s t : State} {k : Nat} (h : step s = .next t) (ht : RunsToIdle k t) :
    RunsToIdle (k + 1) s := by
  have hrun : core.run (k + 1) s = core.run k t := run_succ_of_next h k
  unfold RunsToIdle
  rw [hrun]
  exact ht

theorem RunsToIdle.of_fault {s : State} {n : Nat} (h : step s = .fault (.unwrittenSlot n)) : RunsToIdle 1 s :=
  .inr ⟨n, run_succ_of_fault h 0⟩

/-- By induction on the length of the schedule, which each step that leaves the block busy makes shorter. -/
theorem exists_runsToIdle {s : State} (hbusy : s.busy = true) : ∃ k, k ≤ s.sched.length + 1 ∧ RunsToIdle k s := by
  induction hlen : s.sched.length using Nat.strong_induction_on generalizing s with
  | _ n ih =>
    obtain ⟨t, hstep, hnext⟩ | ⟨slot, hfault⟩ := step_cases_of_busy hbusy
    · cases ht : t.busy with
      | false => exact ⟨1, by omega, .of_next hstep (.inl ⟨t, rfl, ht⟩)⟩
      | true =>
        have hshorter : t.sched.length < n := hlen ▸ hnext.resolve_left (by simp [ht])
        obtain ⟨k, hk, hrun⟩ := ih _ hshorter ht rfl
        exact ⟨k + 1, by omega, .of_next hstep hrun⟩
    · exact ⟨1, by omega, .of_fault hfault⟩

/-! ### A source slot that holds no value -/

theorem Source.check_of_unwritten {s : State} {x : Source} (h : s.slot x.slot = none) :
    x.check s = .error (.fault (.unwrittenSlot x.slot)) := by
  simp [Source.check, h]

/-! ### The resets -/

theorem writeCtrl_of_srst (s : State) {v : Word} (h : v.getLsbD 1 = true) : writeCtrl s v = s.softReset := if_pos h

/-- The soft reset is the reset state but for operand memory and the lists of events and answers (R40, R182). -/
theorem State.softReset_eq_resetWith (s : State) :
    s.softReset = { State.resetWith s.params with
      om := s.om, sched := s.sched, host := s.host, stalled := s.stalled, answers := s.answers } := rfl

theorem State.hardReset_eq_resetWith (s : State) :
    s.hardReset = { State.resetWith s.params with
      sched := s.sched, host := s.host, stalled := s.stalled, answers := s.answers } := rfl

theorem PerformsNext.params_eq {s t : State} {e : HostEvent} (h : PerformsNext s e t) : t.params = s.params := by
  obtain ⟨moves, events, held, rfl⟩ := h.exists_eq
  rfl

theorem stalls_csr_write (s : State) {offset : HostAddr} (v : Word) (hcsr : offset.toNat < 0x1000)
    (hcount : offset.toNat ≠ 0x030) (hcmd : offset.toNat ≠ 0x040) : stalls s (.write offset 8 v) = false := by
  simp [stalls, region_csr s hcsr, hcount, hcmd]

end Sys2Proof.Machine

namespace Sys2Proof.Proofs

open Sys2Proof.Machine

/-- Settles O16: a step that leaves the block busy uses up a move of the schedule (`step_cases_of_busy`), so a busy block is
idle at the latest one step after the schedule is empty. -/
theorem busyBlockBecomesIdle : Obligations.BusyBlockBecomesIdle := fun _ => exists_runsToIdle

/-- Settles O20: the checks of the source slots stop at the first that holds no value, and the command with them. -/
theorem firstUnwrittenSourceFaults : Obligations.FirstUnwrittenSourceFaults :=
  fun _ _ _ _ _ hwf hshape hext hsources hpre hunwritten =>
    exec_of_source_error hwf hshape hext hsources hpre (Source.check_of_unwritten hunwritten)

/-- Settles O59: a CTRL write with SRST is the soft reset (`writeCtrl_of_srst`), both resets are `State.resetWith` but for
what they keep, and neither the input nor CTRL is among what stalls. -/
theorem resetsClearTheRegisters : Obligations.ResetsClearTheRegisters := by
  refine ⟨fun s t v hsrst h => ?_, fun s t h => ?_, fun p n => ⟨rfl, rfl⟩, fun s => ⟨rfl, fun v => ?_⟩⟩
  · have hwrite : csrWrite t (0x010 : HostAddr).toNat v = t.softReset := writeCtrl_of_srst t hsrst
    rw [step_csr_write h (by decide) rfl, hwrite, t.softReset_eq_resetWith, h.params_eq, h.om_eq]
    rfl
  · rw [step_of_performsNext h, ← h.params_eq, ← t.hardReset_eq_resetWith]
    rfl
  · exact stalls_csr_write s v (by decide) (by decide) (by decide)

end Sys2Proof.Proofs
end
